-- ==== Sys2Proof/Word.lean ====
section
/-! DEFINITION. The words of the ICC: bytes, 16-bit entries, 32-bit registers, 64-bit bus addresses and pair words
(spec/00_scope.md R8, spec/20_memory.md R60, R66). -/

namespace Sys2Proof

/-- One byte of system memory, one color channel, one palette index. -/
abbrev Byte := BitVec 8

/-- A 16-bit value: a 5-6-5 entry (R39), the WIDTH and HEIGHT fields (R26, R27). -/
abbrev Half := BitVec 16

/-- A 32-bit register value, command word or texel (R23, R38, R92). -/
abbrev Word := BitVec 32

/-- A 64-bit bus address or pair word (R60, R66). -/
abbrev DWord := BitVec 64

end Sys2Proof
end

