-- ==== Sys2Proof/Syntax.lean ====
section
/-! DEFINITION. The syntax of the ICC's operations (spec/30_encoding.md): host accesses to the register aperture
(format MMIO, R91), command words (format CMD32, R92), and `Instr`, one constructor per row of spec/opcode_table.json. -/

namespace Sys2Proof

/-- The width of a host access. Only a 4-byte access is an MMIO operation; the others get a bus error (R64). -/
inductive AccessSize where
  | b1
  | b2
  | b4
  | b8
  deriving DecidableEq, Repr

/-- Direction of a host access, with the data of a write (R91). -/
inductive Direction where
  | read
  | write (data : Word)
  deriving DecidableEq, Repr

/-- A host access to the aperture: byte offset from BLOCK_BASE, width, direction and data (R64, R91). -/
structure Access where
  offset : BitVec 12
  size   : AccessSize
  dir    : Direction
  deriving DecidableEq, Repr

/-- What the ICC decodes: a command word written to CMD, or an access that reached the register port (R90). -/
inductive Encoding where
  | command (w : Word)
  | access (a : Access)
  deriving DecidableEq, Repr

/-- The commands a 32-bit command word can stand for (R94), and the reserved opcodes (R95), which carry their word. -/
inductive Command where
  | nop
  | init
  | shutdown
  | present
  | setPalette
  | setGamma (level : Byte)
  | nearest (r g b : Byte)
  | ack (clrStat clrErr : Bool)
  | reservedOpcode (w : Word)
  deriving DecidableEq, Repr

/-- The operations of the ICC, one constructor per row of spec/opcode_table.json. -/
inductive Instr where
  /-- NOP (R210). -/
  | nop
  /-- INIT (R125). -/
  | init
  /-- SHUTDOWN (R131). -/
  | shutdown
  /-- PRESENT (R150). -/
  | present
  /-- SET_PALETTE (R181). -/
  | setPalette
  /-- SET_GAMMA (R187). -/
  | setGamma (level : Byte)
  /-- NEAREST (R189). -/
  | nearest (r g b : Byte)
  /-- ACK (R211). -/
  | ack (clrStat clrErr : Bool)
  /-- WR_CMD (R24, R233). -/
  | wrCmd (data : Word)
  /-- WR_WIDTH (R120). -/
  | wrWidth (data : Word)
  /-- WR_HEIGHT (R121). -/
  | wrHeight (data : Word)
  /-- WR_LOG_BASE_LO (R122). -/
  | wrLogBaseLo (data : Word)
  /-- WR_LOG_BASE_HI (R122). -/
  | wrLogBaseHi (data : Word)
  /-- WR_PHYS_BASE_LO (R123). -/
  | wrPhysBaseLo (data : Word)
  /-- WR_PHYS_BASE_HI (R123). -/
  | wrPhysBaseHi (data : Word)
  /-- WR_PAL_SRC_LO (R180). -/
  | wrPalSrcLo (data : Word)
  /-- WR_PAL_SRC_HI (R180). -/
  | wrPalSrcHi (data : Word)
  /-- WR_STATUS (R217). -/
  | wrStatus (data : Word)
  /-- WR_GAMMA (R217). -/
  | wrGamma (data : Word)
  /-- WR_FRAME_COUNT (R217). -/
  | wrFrameCount (data : Word)
  /-- WR_HALF_SIZE (R217). -/
  | wrHalfSize (data : Word)
  /-- WR_ACTIVE_BASE_LO (R217). -/
  | wrActiveBaseLo (data : Word)
  /-- WR_ACTIVE_BASE_HI (R217). -/
  | wrActiveBaseHi (data : Word)
  /-- WR_NEAREST (R217). -/
  | wrNearest (data : Word)
  /-- WR_CT_WINDOW (R217). -/
  | wrCtWindow (i : Byte) (data : Word)
  /-- WR_P565_WINDOW (R217). -/
  | wrP565Window (i : Byte) (data : Word)
  /-- RD_CMD (R218). -/
  | rdCmd
  /-- RD_STATUS (R212). -/
  | rdStatus
  /-- RD_WIDTH (R216). -/
  | rdWidth
  /-- RD_HEIGHT (R216). -/
  | rdHeight
  /-- RD_LOG_BASE_LO (R216). -/
  | rdLogBaseLo
  /-- RD_LOG_BASE_HI (R216). -/
  | rdLogBaseHi
  /-- RD_PHYS_BASE_LO (R216). -/
  | rdPhysBaseLo
  /-- RD_PHYS_BASE_HI (R216). -/
  | rdPhysBaseHi
  /-- RD_PAL_SRC_LO (R216). -/
  | rdPalSrcLo
  /-- RD_PAL_SRC_HI (R216). -/
  | rdPalSrcHi
  /-- RD_GAMMA (R196). -/
  | rdGamma
  /-- RD_FRAME_COUNT (R213). -/
  | rdFrameCount
  /-- RD_HALF_SIZE (R214). -/
  | rdHalfSize
  /-- RD_ACTIVE_BASE_LO (R215). -/
  | rdActiveBaseLo
  /-- RD_ACTIVE_BASE_HI (R215). -/
  | rdActiveBaseHi
  /-- RD_NEAREST (R197). -/
  | rdNearest
  /-- RD_CT (R194). -/
  | rdCt (i : Byte)
  /-- RD_P565 (R195). -/
  | rdP565 (i : Byte)
  /-- RESERVED_OFFSET (R219). -/
  | reservedOffset (offset : BitVec 12) (dir : Direction)
  /-- RESERVED_OPCODE (R95). -/
  | reservedOpcode (w : Word)
  deriving DecidableEq, Repr

/-- The operation a command stands for. -/
def Command.toInstr : Command → Instr
  | .nop => .nop
  | .init => .init
  | .shutdown => .shutdown
  | .present => .present
  | .setPalette => .setPalette
  | .setGamma level => .setGamma level
  | .nearest r g b => .nearest r g b
  | .ack clrStat clrErr => .ack clrStat clrErr
  | .reservedOpcode w => .reservedOpcode w

end Sys2Proof
end

