-- ==== Sys2Proof/WellFormed.lean ====
section
/-! DEFINITION. Which terms of `Instr` are operations of the table: field widths are in the types, so only the two
reserved rows carry a check (spec/30_encoding.md R91, R95; spec/43_control.md R219). -/

namespace Sys2Proof

/-- offset[1:0] = 0 (R91). -/
def isAligned (offset : BitVec 12) : Bool := offset.toNat % 4 == 0

/-- The reserved offsets 0x040..0x3FC and 0xC00..0xFFC, with the three bytes above each (R219). -/
def isReservedOffset (offset : BitVec 12) : Bool :=
  (0x040 ≤ offset.toNat && offset.toNat < 0x400) || 0xC00 ≤ offset.toNat

/-- An operation the table has: a reserved offset is aligned and in a reserved range, a reserved opcode has OP ≥ 8. -/
def Instr.wellFormed : Instr → Bool
  | .nop => true
  | .init => true
  | .shutdown => true
  | .present => true
  | .setPalette => true
  | .setGamma _ => true
  | .nearest _ _ _ => true
  | .ack _ _ => true
  | .wrCmd _ => true
  | .wrWidth _ => true
  | .wrHeight _ => true
  | .wrLogBaseLo _ => true
  | .wrLogBaseHi _ => true
  | .wrPhysBaseLo _ => true
  | .wrPhysBaseHi _ => true
  | .wrPalSrcLo _ => true
  | .wrPalSrcHi _ => true
  | .wrStatus _ => true
  | .wrGamma _ => true
  | .wrFrameCount _ => true
  | .wrHalfSize _ => true
  | .wrActiveBaseLo _ => true
  | .wrActiveBaseHi _ => true
  | .wrNearest _ => true
  | .wrCtWindow _ _ => true
  | .wrP565Window _ _ => true
  | .rdCmd => true
  | .rdStatus => true
  | .rdWidth => true
  | .rdHeight => true
  | .rdLogBaseLo => true
  | .rdLogBaseHi => true
  | .rdPhysBaseLo => true
  | .rdPhysBaseHi => true
  | .rdPalSrcLo => true
  | .rdPalSrcHi => true
  | .rdGamma => true
  | .rdFrameCount => true
  | .rdHalfSize => true
  | .rdActiveBaseLo => true
  | .rdActiveBaseHi => true
  | .rdNearest => true
  | .rdCt _ => true
  | .rdP565 _ => true
  | .reservedOffset offset _ => isAligned offset && isReservedOffset offset
  | .reservedOpcode w => w.getLsbD 3

end Sys2Proof
end

