-- ==== Sys2Proof/Decode.lean ====
section
/-! DEFINITION. Decoding and encoding (spec/30_encoding.md R91 to R102). Decoding is total: every 32-bit word and every
host access is one operation or is rejected by name. -/

namespace Sys2Proof

/-- Why an encoding is no operation. -/
inductive DecodeError where
  /-- A host access whose width is not 32 bits (R64): the port answers with a bus error. -/
  | notWordAccess
  /-- A 32-bit host access at an offset that is no multiple of 4 (R64): the port answers with a bus error. -/
  | misaligned
  /-- A command word with a defined OP and a 1 in a reserved bit (R96): rejected at issue with EOPCODE. -/
  | reservedBits
  deriving DecidableEq, Repr

/-- The mask column of the opcode map (R94); OP 8 to 15 have no row. -/
def opMask : Nat → Word
  | 5 => 0xFFFF00FF#32
  | 6 => 0x000000FF#32
  | 7 => 0xFFFFFCFF#32
  | _ => 0xFFFFFFFF#32

/-- The match column of the opcode map (R94): the OP in bits [3:0], every other compared bit 0. -/
def opMatch (op : Nat) : Word := BitVec.ofNat 32 op

/-- The command of a word that has passed the mask check of its OP, with its operand fields (R93, R101). -/
def commandOf (op : Nat) (w : Word) : Command :=
  match op with
  | 0 => .nop
  | 1 => .init
  | 2 => .shutdown
  | 3 => .present
  | 4 => .setPalette
  | 5 => .setGamma (w.extractLsb' 8 8)
  | 6 => .nearest (w.extractLsb' 8 8) (w.extractLsb' 16 8) (w.extractLsb' 24 8)
  | 7 => .ack (w.getLsbD 8) (w.getLsbD 9)
  | _ => .reservedOpcode w

/-- Decoding of a command word (R101). The reserved opcodes are named; a set reserved bit is an error. -/
def decodeCommand (w : Word) : Except DecodeError Command :=
  let op := (w.extractLsb' 0 4).toNat
  if 8 ≤ op then .ok (.reservedOpcode w)
  else if w &&& opMask op ≠ opMatch op then .error .reservedBits
  else .ok (commandOf op w)

/-- The register an aligned offset selects (R23). -/
inductive Slot where
  | cmd
  | status
  | width
  | height
  | logBaseLo
  | logBaseHi
  | physBaseLo
  | physBaseHi
  | palSrcLo
  | palSrcHi
  | gamma
  | frameCount
  | halfSize
  | activeBaseLo
  | activeBaseHi
  | nearest
  | ct (i : Byte)
  | p565 (i : Byte)
  | reserved
  deriving DecidableEq, Repr

/-- The register map of R23: offset[11:2] selects one of 1024 slots (R91). -/
def slotOf (offset : BitVec 12) : Slot :=
  if offset = 0x000#12 then .cmd
  else if offset = 0x004#12 then .status
  else if offset = 0x008#12 then .width
  else if offset = 0x00C#12 then .height
  else if offset = 0x010#12 then .logBaseLo
  else if offset = 0x014#12 then .logBaseHi
  else if offset = 0x018#12 then .physBaseLo
  else if offset = 0x01C#12 then .physBaseHi
  else if offset = 0x020#12 then .palSrcLo
  else if offset = 0x024#12 then .palSrcHi
  else if offset = 0x028#12 then .gamma
  else if offset = 0x02C#12 then .frameCount
  else if offset = 0x030#12 then .halfSize
  else if offset = 0x034#12 then .activeBaseLo
  else if offset = 0x038#12 then .activeBaseHi
  else if offset = 0x03C#12 then .nearest
  else if offset.extractLsb' 10 2 = 1#2 then .ct (offset.extractLsb' 2 8)
  else if offset.extractLsb' 10 2 = 2#2 then .p565 (offset.extractLsb' 2 8)
  else .reserved

/-- The read operation at an aligned offset (R102). -/
def decodeRead (offset : BitVec 12) : Instr :=
  match slotOf offset with
  | .cmd => .rdCmd
  | .status => .rdStatus
  | .width => .rdWidth
  | .height => .rdHeight
  | .logBaseLo => .rdLogBaseLo
  | .logBaseHi => .rdLogBaseHi
  | .physBaseLo => .rdPhysBaseLo
  | .physBaseHi => .rdPhysBaseHi
  | .palSrcLo => .rdPalSrcLo
  | .palSrcHi => .rdPalSrcHi
  | .gamma => .rdGamma
  | .frameCount => .rdFrameCount
  | .halfSize => .rdHalfSize
  | .activeBaseLo => .rdActiveBaseLo
  | .activeBaseHi => .rdActiveBaseHi
  | .nearest => .rdNearest
  | .ct i => .rdCt i
  | .p565 i => .rdP565 i
  | .reserved => .reservedOffset offset .read

/-- The write operation at an aligned offset (R102). -/
def decodeWrite (offset : BitVec 12) (data : Word) : Instr :=
  match slotOf offset with
  | .cmd => .wrCmd data
  | .status => .wrStatus data
  | .width => .wrWidth data
  | .height => .wrHeight data
  | .logBaseLo => .wrLogBaseLo data
  | .logBaseHi => .wrLogBaseHi data
  | .physBaseLo => .wrPhysBaseLo data
  | .physBaseHi => .wrPhysBaseHi data
  | .palSrcLo => .wrPalSrcLo data
  | .palSrcHi => .wrPalSrcHi data
  | .gamma => .wrGamma data
  | .frameCount => .wrFrameCount data
  | .halfSize => .wrHalfSize data
  | .activeBaseLo => .wrActiveBaseLo data
  | .activeBaseHi => .wrActiveBaseHi data
  | .nearest => .wrNearest data
  | .ct i => .wrCtWindow i data
  | .p565 i => .wrP565Window i data
  | .reserved => .reservedOffset offset (.write data)

/-- Decoding of a host access: only a 32-bit access with offset[1:0] = 0 is an operation (R64, R91, R102). -/
def decodeAccess (a : Access) : Except DecodeError Instr :=
  if a.size ≠ .b4 then .error .notWordAccess
  else if !isAligned a.offset then .error .misaligned
  else match a.dir with
    | .read => .ok (decodeRead a.offset)
    | .write data => .ok (decodeWrite a.offset data)

/-- The decoder: command words (R101) and host accesses (R91, R102). -/
def decode : Encoding → Except DecodeError Instr
  | .command w => (decodeCommand w).map Command.toInstr
  | .access a => decodeAccess a

/-- The 32-bit read access at an offset. -/
def readAccess (offset : BitVec 12) : Encoding := .access { offset := offset, size := .b4, dir := .read }

/-- The 32-bit write access of a value at an offset. -/
def writeAccess (offset : BitVec 12) (data : Word) : Encoding :=
  .access { offset := offset, size := .b4, dir := .write data }

/-- Offset base + 4i of entry i of a table window (R23). -/
def windowOffset (base : BitVec 12) (i : Byte) : BitVec 12 := base + (i.setWidth 12 <<< 2)

/-- The command word of a command (R93, R94, R99). -/
def encodeCommand : Command → Word
  | .nop => 0x00000000#32
  | .init => 0x00000001#32
  | .shutdown => 0x00000002#32
  | .present => 0x00000003#32
  | .setPalette => 0x00000004#32
  | .setGamma level => 0#16 ++ level ++ 0x05#8
  | .nearest r g b => b ++ g ++ r ++ 0x06#8
  | .ack clrStat clrErr => 0#22 ++ BitVec.ofBool clrErr ++ BitVec.ofBool clrStat ++ 0x07#8
  | .reservedOpcode w => w

/-- The encoder: the command word or the register access of an operation (R94, R102). -/
def encode : Instr → Encoding
  | .nop => .command (encodeCommand .nop)
  | .init => .command (encodeCommand .init)
  | .shutdown => .command (encodeCommand .shutdown)
  | .present => .command (encodeCommand .present)
  | .setPalette => .command (encodeCommand .setPalette)
  | .setGamma level => .command (encodeCommand (.setGamma level))
  | .nearest r g b => .command (encodeCommand (.nearest r g b))
  | .ack clrStat clrErr => .command (encodeCommand (.ack clrStat clrErr))
  | .wrCmd data => writeAccess 0x000#12 data
  | .wrWidth data => writeAccess 0x008#12 data
  | .wrHeight data => writeAccess 0x00C#12 data
  | .wrLogBaseLo data => writeAccess 0x010#12 data
  | .wrLogBaseHi data => writeAccess 0x014#12 data
  | .wrPhysBaseLo data => writeAccess 0x018#12 data
  | .wrPhysBaseHi data => writeAccess 0x01C#12 data
  | .wrPalSrcLo data => writeAccess 0x020#12 data
  | .wrPalSrcHi data => writeAccess 0x024#12 data
  | .wrStatus data => writeAccess 0x004#12 data
  | .wrGamma data => writeAccess 0x028#12 data
  | .wrFrameCount data => writeAccess 0x02C#12 data
  | .wrHalfSize data => writeAccess 0x030#12 data
  | .wrActiveBaseLo data => writeAccess 0x034#12 data
  | .wrActiveBaseHi data => writeAccess 0x038#12 data
  | .wrNearest data => writeAccess 0x03C#12 data
  | .wrCtWindow i data => writeAccess (windowOffset 0x400#12 i) data
  | .wrP565Window i data => writeAccess (windowOffset 0x800#12 i) data
  | .rdCmd => readAccess 0x000#12
  | .rdStatus => readAccess 0x004#12
  | .rdWidth => readAccess 0x008#12
  | .rdHeight => readAccess 0x00C#12
  | .rdLogBaseLo => readAccess 0x010#12
  | .rdLogBaseHi => readAccess 0x014#12
  | .rdPhysBaseLo => readAccess 0x018#12
  | .rdPhysBaseHi => readAccess 0x01C#12
  | .rdPalSrcLo => readAccess 0x020#12
  | .rdPalSrcHi => readAccess 0x024#12
  | .rdGamma => readAccess 0x028#12
  | .rdFrameCount => readAccess 0x02C#12
  | .rdHalfSize => readAccess 0x030#12
  | .rdActiveBaseLo => readAccess 0x034#12
  | .rdActiveBaseHi => readAccess 0x038#12
  | .rdNearest => readAccess 0x03C#12
  | .rdCt i => readAccess (windowOffset 0x400#12 i)
  | .rdP565 i => readAccess (windowOffset 0x800#12 i)
  | .reservedOffset offset dir => .access { offset := offset, size := .b4, dir := dir }
  | .reservedOpcode w => .command (encodeCommand (.reservedOpcode w))

/-- What spec/opcode_table.json's bits stand for (log entry 3, DESIGN CHOICE): a row of 16 bits is an MMIO row, its bits
[11:0] the offset, its bit 12 the direction (the table gives none: clear is a write, set is a read), its bits from 16 up
the data of a write; a row of any other length is a command word. -/
def tableEncoding (nbits w : Nat) : Encoding :=
  if nbits = 16 then
    .access
      { offset := BitVec.ofNat 12 w
        size := .b4
        dir := if w.testBit 12 then .read else .write (BitVec.ofNat 32 (w >>> 16)) }
  else .command (BitVec.ofNat 32 w)

/-- The operation the decoder reads from a word numbered as spec/opcode_table.json numbers it. -/
def decodeTableWord (nbits w : Nat) : Option Instr := (decode (tableEncoding nbits w)).toOption

end Sys2Proof
end

