-- ==== Sys2Proof/Config.lean ====
section
/-! DEFINITION. The parameters of spec/00_scope.md R6 and the free values: what this hardware fixes, what R6 leaves
OPEN, and the values the rules leave unspecified. An `opaque` constant has no body anything can evaluate, so no proof
rests on a value of it. -/

namespace Sys2Proof.Config

/-- PALETTE_ENTRIES (R6). -/
abbrev paletteEntries : Nat := 256

/-- PALETTE_BYTES: 3 × PALETTE_ENTRIES (R6). -/
abbrev paletteBytes : Nat := 768

/-- BYTES_PER_TEXEL (R6). -/
abbrev bytesPerTexel : Nat := 4

/-- PAIR_BYTES: two texels of one 64-bit write (R6). -/
abbrev pairBytes : Nat := 8

/-- BLOCK_PIXELS: the size constraint of INIT (R6, R127). -/
abbrev blockPixels : Nat := 16

/-- FRAMES_PER_STAT: period of the statistics trigger (R6, R161). -/
abbrev framesPerStat : Nat := 512

/-- 2^ADDR_WIDTH with ADDR_WIDTH = 64: the number of bus addresses (R6). -/
abbrev addressSpace : Nat := 2 ^ 64

/-- MAX_HALF_SIZE (R6). -/
abbrev maxHalfSize : Nat := 2 ^ 31

/-- PHYS_ALIGN (R6). -/
abbrev physAlign : Nat := 8

/-- NUM_GAMMA_LEVELS − 1, OPEN within 0..255 (R6): see `numGammaLevels`. Log entry 8. -/
opaque gammaTopLevel : Fin 256

/-- NUM_GAMMA_LEVELS, OPEN with 1 ≤ NUM_GAMMA_LEVELS ≤ 256 (R6, R7). Log entry 8. -/
def numGammaLevels : Nat := gammaTopLevel.val + 1

/-- GAMMA_LUT at the levels R6 leaves OPEN (every level but 0). Log entry 8. -/
opaque gammaLutOpen : Byte → Byte → Byte

/-- GAMMA_LUT(level, v): level 0 is the identity, every other level is OPEN (R6, R7). -/
def gammaLut (level v : Byte) : Byte := if level = 0 then v else gammaLutOpen level v

/-- BLOCK_BASE, OPEN: the bus address of the aperture (R6, R70). No rule of the machine reads it: a host access reaches
the register port as an offset (R91). Log entries 8 and 19. -/
opaque blockBase : DWord

/-- The bus address at which the host reaches the register at a byte offset of the aperture (R23, R91). -/
def registerAddress (offset : BitVec 12) : Nat := blockBase.toNat + offset.toNat

/-- Free byte number `i` of draw `d` (R77, R162, R261). Log entry 7. -/
opaque freeByte : Nat → Nat → Byte

/-- Free 32-bit texel number `i` of draw `d` (R76). Log entry 7. -/
opaque freeTexel : Nat → Nat → Word

/-- Free bits [23:0] of color table entry `i` of draw `d` (R76). Log entry 7. -/
opaque freeColor : Nat → Nat → BitVec 24

/-- Free shadow palette entry `i` of draw `d` (R76). Log entry 7. -/
opaque freeEntry565 : Nat → Nat → Half

/-- Whether a PRESENT that meets both a bus error and an access that never answers stops at the error (R162: it may stop
at the first error or continue). Log entry 10. -/
opaque stopsAtError : Nat → Bool

end Sys2Proof.Config
end

