-- ==== Sys2Proof/Machine/State.lean ====
section
/-! DEFINITION. The state of the ICC as plain data (spec/10_state.md), what stands for the world around it, and the
machine right after reset (R44). -/

namespace Sys2Proof.Machine

/-- STATUS.ERR (spec/60_exceptions.md R231): no error, or one of the eight codes. Codes 9 to 15 are never written. -/
inductive ErrCode where
  | noError
  | eopcode
  | ebusy
  | estate
  | edim
  | ealign
  | erange
  | egamma
  | ebus
  deriving DecidableEq, Repr

/-- The latched geometry G (R37). -/
structure Geometry where
  /-- G.W, pixels. -/
  w : Half
  /-- G.H, pixels. -/
  h : Half
  /-- G.N = G.W × G.H, pixels. -/
  n : Nat
  /-- G.LOG, bus address of the logical surface. -/
  log : DWord
  /-- G.PHYS, bus address of half 0. -/
  phys : DWord
  /-- G.S, bytes of one half. -/
  s : Nat
  deriving DecidableEq, Repr

/-- An accepted command with the operand values sampled at acceptance (R32). -/
inductive PendingOp where
  | init (w h : Half) (logBase physBase : DWord)
  | shutdown
  | present
  | setPalette (palSrc : DWord)
  | setGamma (level : Byte)
  | nearest (r g b : Byte)
  deriving DecidableEq, Repr

/-- PENDING when it is not `none` (R32). `raced` is the model's own: the byte addresses other agents have written since
acceptance, which R76 and R77 need (log entry 12). -/
structure Pending where
  op    : PendingOp
  raced : List Nat
  deriving DecidableEq, Repr

/-- A table of 256 entries (R38, R39). -/
abbrev Table (w : Nat) := Vector (BitVec w) Config.paletteEntries

/-- System memory (R60): a list of cells, strictly rising by address, no cell equal to what an unlisted address reads
as. Canonical form: `Memory.wf` of Machine/Ops.lean. -/
abbrev Memory := List Host.Cell

/-- A span of `len` bus addresses from `lo` up. -/
structure Span where
  lo  : Nat
  len : Nat
  deriving DecidableEq, Repr

/-- How the bus answers in a span that is not ordinary memory (log entry 9). -/
inductive BusKind where
  /-- Every access gets an error response (R82). -/
  | error
  /-- No access ever gets a response (R246). -/
  | silent
  /-- Device memory, where a read may have side effects (R68). -/
  | device
  deriving DecidableEq, Repr

/-- A span of bus addresses that is not ordinary, answering memory. -/
structure BusRegion where
  span : Span
  kind : BusKind
  deriving DecidableEq, Repr

/-- What happens next in the world of the ICC: one agent of R20 moves (log entry 2). -/
inductive Event where
  /-- A host access arrives at the register port (R72). -/
  | access (a : Access)
  /-- The command engine takes its step: the pending command, if any, completes (R32). -/
  | engine
  /-- The reset input is asserted (R260). -/
  | reset
  /-- Another agent writes a byte of memory (R76, R77). -/
  | agentWrite (a : DWord) (v : Byte)
  /-- Another agent reads a byte of memory (R77). -/
  | agentRead (a : DWord)
  /-- A write of a PRESENT that a reset aborted lands (R261). -/
  | lateWrite (a : DWord)
  /-- The platform changes which spans are not ordinary memory (log entry 9). -/
  | bus (regions : List BusRegion)
  deriving DecidableEq, Repr

/-- What the step just taken answered (log entry 6). -/
inductive Response where
  /-- The step answered no access. -/
  | none
  /-- Data of a register read (`data <-` of spec/43_control.md R212 to R219 and spec/42_palette.md R194 to R197). -/
  | data (v : Word)
  /-- A register write was accepted by the port (R217). -/
  | written
  /-- The error response on the host bus (R64, R236). -/
  | busError
  /-- The byte another agent's memory read returned (R77). -/
  | memByte (v : Byte)
  deriving DecidableEq, Repr

/-- The state. The fields up to `flip` are the ICC's (spec/10_state.md) and system memory; the fields after it are the
model's own and stand for the world outside or count free values. STATUS.BUSY, HALF_SIZE, ACTIVE_BASE and the other
outputs are computed (Machine/Flags.lean, Machine/Operands.lean). -/
structure State where
  /-- WIDTH (R26). -/
  width : Half
  /-- HEIGHT (R27). -/
  height : Half
  /-- LOG_BASE_HI ++ LOG_BASE_LO (R28). -/
  logBase : DWord
  /-- PHYS_BASE_HI ++ PHYS_BASE_LO (R29). -/
  physBase : DWord
  /-- PAL_SRC_HI ++ PAL_SRC_LO (R30). -/
  palSrc : DWord
  /-- GAMMA (R31). -/
  gamma : Byte
  /-- FRAME_COUNT (R33). -/
  frameCount : Word
  /-- NEAREST (R36). -/
  nearest : Byte
  /-- STATUS.ACTIVE (R25): false is half 0, true is half 1. -/
  active : Bool
  /-- STATUS.INIT (R25). -/
  initFlag : Bool
  /-- STATUS.STAT_DUE (R25). -/
  statDue : Bool
  /-- STATUS.ERR (R25, R231). -/
  err : ErrCode
  /-- PENDING (R32). STATUS.BUSY = 1 exactly when it is not `none`. -/
  pending : Option Pending
  /-- The latched geometry G (R37). -/
  geom : Geometry
  /-- The color table CT (R38). -/
  ct : Table 32
  /-- The shadow palette P565 (R39). -/
  p565 : Table 16
  /-- Staging storage of the color table (R40; log entry 14). -/
  stageCt : Table 32
  /-- Staging storage of the shadow palette (R40; log entry 14). -/
  stageP565 : Table 16
  /-- System memory (R60). -/
  mem : Memory
  /-- The `flip` output (R41): true exactly in the state right after the step that asserts it. -/
  flip : Bool
  /-- What the step just taken answered (log entry 6). -/
  resp : Response
  /-- Spans an aborted PRESENT may still write (R261; log entry 13). -/
  inflight : List Span
  /-- The spans of bus addresses that are not ordinary memory (log entry 9). -/
  bus : List BusRegion
  /-- The events that have not happened yet, oldest first (log entry 2). -/
  inbox : List Event
  /-- How many draws of free values have been made (log entry 7). -/
  fresh : Nat
  deriving DecidableEq, Repr

/-- Why the machine stops. -/
inductive Fault where
  /-- Raised by PRESENT and SET_PALETTE when a region they access lies over device memory: R68 says that such a host
  steps outside the spec and that the command's outcome is unspecified. Safe: the model stops where hardware may do
  anything (log entry 11). -/
  | deviceMemory
  deriving DecidableEq, Repr

/-- Why an instruction is refused. -/
inductive Refusal where
  /-- Raised by an arm of `exec` whose instruction has no meaning yet. Safe: nothing is claimed of it. No arm does. -/
  | notModelled (mnemonic : String)
  deriving DecidableEq, Repr

/-- Every field of G is 0 at reset (R37). -/
def Geometry.reset : Geometry := { w := 0, h := 0, n := 0, log := 0, phys := 0, s := 0 }

/-- A table of zeros (R38, R39). -/
def Table.zero (w : Nat) : Table w := Vector.replicate Config.paletteEntries 0

/-- The machine right after reset (R44). Memory lists nothing (log entry 1); the model's own fields are empty
(log entries 2, 6, 7, 9, 13, 14). -/
def State.reset : State :=
  { width := 0, height := 0, logBase := 0, physBase := 0, palSrc := 0, gamma := 0, frameCount := 0, nearest := 0
    active := false, initFlag := false, statDue := false, err := .noError, pending := none
    geom := Geometry.reset, ct := Table.zero 32, p565 := Table.zero 16
    stageCt := Table.zero 32, stageP565 := Table.zero 16
    mem := [], flip := false, resp := .none, inflight := [], bus := [], inbox := [], fresh := 0 }

end Sys2Proof.Machine
end

