-- ==== Sys2Proof/Machine/Ops.lean ====
section
/-! DEFINITION. The named operations every meaning is written with: bytes of system memory and ranges of them, table
entries, the response of the register port, and errors. The ICC takes no traps (spec/60_exceptions.md R230, R238): its
one "exception entry" is `State.raiseErr`, and there is no return from it (R239). -/

namespace Sys2Proof.Machine

/-- The outcome of a meaning. -/
abbrev Result := Host.Outcome State Fault Refusal

/-! ### System memory -/

/-- What an address that is not listed reads as (log entry 1, DESIGN CHOICE). -/
def Memory.unlisted : Byte := 0

/-- The byte at a bus address. -/
def Memory.read : Memory → Nat → Byte
  | [], _ => Memory.unlisted
  | (b, v) :: m, a => if a = b then v else Memory.read m a

/-- A list of cells with the byte at `a` set to `v`, in canonical form. -/
def Memory.set : Memory → Nat → Byte → Memory
  | [], a, v => if v = Memory.unlisted then [] else [(a, v)]
  | (b, w) :: m, a, v =>
    if a < b then (if v = Memory.unlisted then (b, w) :: m else (a, v) :: (b, w) :: m)
    else if a = b then (if v = Memory.unlisted then m else (a, v) :: m)
    else (b, w) :: Memory.set m a v

/-- A write of one byte. There is no bus address from 2^64 up (R60), so nothing is written there (log entry 16). -/
def Memory.write (m : Memory) (a : Nat) (v : Byte) : Memory :=
  if a < Config.addressSpace then Memory.set m a v else m

/-- Writes of the `n` bytes `f 0`, `f 1`, … at rising addresses from `base`. -/
def Memory.fill (m : Memory) (base : Nat) (f : Nat → Byte) : Nat → Memory
  | 0 => m
  | n + 1 => Memory.write (Memory.fill m base f n) (base + n) (f n)

/-- MemWrite(a, 8, v): the byte at the lowest address holds bits [7:0] (R9, R61). -/
def Memory.write64 (m : Memory) (a : Nat) (v : DWord) : Memory :=
  Memory.fill m a (fun i => v.extractLsb' (8 * i) 8) 8

/-- `n` 64-bit writes at consecutive 8-byte slots from `base` (R66). -/
def Memory.writePairs (m : Memory) (base : Nat) (f : Nat → DWord) : Nat → Memory
  | 0 => m
  | n + 1 => Memory.write64 (Memory.writePairs m base f n) (base + Config.pairBytes * n) (f n)

/-- Writes of `f a` at each address `a` of a list. -/
def Memory.scribble (m : Memory) (f : Nat → Byte) : List Nat → Memory
  | [] => m
  | a :: as => Memory.write (Memory.scribble m f as) a (f a)

/-- The canonical form: addresses strictly rising and below 2^64, no cell equal to what an unlisted address reads as. -/
abbrev Memory.wf (m : Memory) : Prop :=
  m.Pairwise (fun x y => x.1 < y.1) ∧ ∀ c ∈ m, c.1 < Config.addressSpace ∧ c.2 ≠ Memory.unlisted

/-! ### Spans and the memory port -/

/-- Whether an address lies in a span. -/
def Span.contains (r : Span) (a : Nat) : Bool := r.lo ≤ a && a < r.lo + r.len

/-- Whether two spans share an address. -/
def Span.overlaps (r q : Span) : Bool := max r.lo q.lo < min (r.lo + r.len) (q.lo + q.len)

/-- What the accesses of one command meet on the memory port. -/
inductive PortResult where
  /-- Every access gets its data. -/
  | ok
  /-- Some access gets an error response (R82). -/
  | error
  /-- Some access never gets a response (R246). -/
  | noResponse
  /-- Some access reaches device memory (R68). -/
  | device
  deriving DecidableEq, Repr

/-- Whether one of the spans meets a bus region of a kind. -/
def State.meets (s : State) (spans : List Span) (kind : BusKind) : Bool :=
  s.bus.any fun r => r.kind == kind && spans.any fun q => r.span.overlaps q

/-- What accesses to every byte of the spans meet. Where an error and a silent region are both met, the command may
stop at the error or go on until no response comes (R162; log entry 10). -/
def State.portResult (s : State) (spans : List Span) : PortResult :=
  if s.meets spans .device then .device
  else if s.meets spans .silent then
    (if s.meets spans .error && Config.stopsAtError s.fresh then .error else .noResponse)
  else if s.meets spans .error then .error
  else .ok

/-! ### Tables -/

/-- Entry i (R38, R39). -/
def Table.get {w : Nat} (t : Table w) (i : Byte) : BitVec w :=
  t[i.toNat]'(i.isLt)

/-- The table whose entry i is `f i`. -/
def Table.of {w : Nat} (f : Byte → BitVec w) : Table w :=
  ⟨((List.range Config.paletteEntries).map fun i => f (BitVec.ofNat 8 i)).toArray, by simp⟩

/-! ### The register port, errors and completion -/

/-- The port answers the access of this step. -/
def State.respond (s : State) (r : Response) : State := { s with resp := r }

/-- Only the step of an event shows its answer and its flip (R41; log entry 6). -/
def State.beginStep (s : State) : State := { s with flip := false, resp := .none }

/-- STATUS.BUSY (R32). -/
def State.busy (s : State) : Bool := s.pending.isSome

/-- `record(code)`: the first error wins (R234). -/
def State.recordErr (s : State) (code : ErrCode) : State :=
  { s with err := if s.err = .noError then code else s.err }

/-- Memory as a command leaves it. -/
def State.setMem (s : State) (m : Memory) : State := { s with mem := m }

/-- One draw of free values has been made (log entry 7). -/
def State.draw (s : State) : State := { s with fresh := s.fresh + 1 }

/-- The end of a command: PENDING <- none, so BUSY <- 0 (R32). -/
def State.complete (s : State) : State := { s with pending := none }

/-- `raise Err(code)`: the command ends, its error is recorded, nothing else changes (R230). -/
def State.raiseErr (s : State) (code : ErrCode) : State := (s.recordErr code).complete

/-- A command other than NOP and ACK at issue: EBUSY while one is pending, else it becomes pending (R233). -/
def State.accept (s : State) (op : PendingOp) : State :=
  if s.busy then s.recordErr .ebusy else { s with pending := some { op := op, raced := [] } }

/-- The addresses other agents have written since the pending command was accepted (log entry 12). -/
def State.raced (s : State) : List Nat :=
  match s.pending with
  | some p => p.raced
  | none => []

end Sys2Proof.Machine
end

