-- ==== Sys2Proof/Machine/Operands.lean ====
section
/-! DEFINITION. Operands: halves of 64-bit registers (spec/30_encoding.md R93), the operands a command samples
(spec/10_state.md R32), the geometry computed by INIT (spec/40_frame_buffer_manager.md R124 to R129), the two halves of
the physical surface, and the color arithmetic of spec/42_palette.md. -/

namespace Sys2Proof.Machine

/-! ### 64-bit registers as two 32-bit halves -/

/-- Bits [31:0]. -/
def lo32 (v : DWord) : Word := v.extractLsb' 0 32

/-- Bits [63:32]. -/
def hi32 (v : DWord) : Word := v.extractLsb' 32 32

/-- A 64-bit register after a write of its LO half (R122). -/
def setLo32 (v : DWord) (data : Word) : DWord := hi32 v ++ data

/-- A 64-bit register after a write of its HI half (R122). -/
def setHi32 (v : DWord) (data : Word) : DWord := data ++ lo32 v

/-! ### Operands of the pending command -/

/-- The command of a pending operation, as the table's instruction. -/
def PendingOp.toInstr : PendingOp → Instr
  | .init _ _ _ _ => .init
  | .shutdown => .shutdown
  | .present => .present
  | .setPalette _ => .setPalette
  | .setGamma level => .setGamma level
  | .nearest r g b => .nearest r g b

/-- The operands INIT works on. -/
structure InitOperands where
  w  : Half
  h  : Half
  lb : DWord
  pb : DWord
  deriving DecidableEq, Repr

/-- WIDTH, HEIGHT, LOG_BASE and PHYS_BASE as they stand: what the acceptance of an INIT samples (R32). -/
def State.sampleInit (s : State) : PendingOp := .init s.width s.height s.logBase s.physBase

/-- PAL_SRC as it stands: what the acceptance of a SET_PALETTE samples (R32). -/
def State.samplePalette (s : State) : PendingOp := .setPalette s.palSrc

/-- The operands of a completing INIT: the sampled ones. In a state whose pending command is no INIT, where no step runs
one, the registers as an acceptance would sample them (log entry 5). -/
def State.initOperands (s : State) : InitOperands :=
  match s.pending with
  | some { op := .init w h lb pb, raced := _ } => { w := w, h := h, lb := lb, pb := pb }
  | _ => { w := s.width, h := s.height, lb := s.logBase, pb := s.physBase }

/-- The palette address PS of a completing SET_PALETTE: the sampled one, with the same convention (log entry 5). -/
def State.paletteSource (s : State) : Nat :=
  match s.pending with
  | some { op := .setPalette ps, raced := _ } => ps.toNat
  | _ => s.palSrc.toNat

/-! ### Geometry -/

/-- next_pow2(x): the least power of two that is at least x, for x ≥ 1 (R9). -/
def nextPow2 (x : Nat) : Nat := if x ≤ 1 then 1 else 2 ^ (Nat.log2 (x - 1) + 1)

/-- The checks of INIT in the order of its pseudocode, and the geometry it latches (R125, R127, R128, R129). -/
def geometryOf (o : InitOperands) : Except ErrCode Geometry :=
  let n := o.w.toNat * o.h.toNat
  let lb := o.lb.toNat
  let pb := o.pb.toNat
  let s := nextPow2 (Config.bytesPerTexel * n)
  if o.w = 0 ∨ o.h = 0 then .error .edim
  else if n % Config.blockPixels ≠ 0 then .error .edim
  else if Config.maxHalfSize < Config.bytesPerTexel * n then .error .edim
  else if pb % Config.physAlign ≠ 0 then .error .ealign
  else if Config.addressSpace < lb + n ∨ Config.addressSpace < pb + 2 * s then .error .erange
  else if lb < pb + 2 * s ∧ pb < lb + n then .error .erange
  else .ok { w := o.w, h := o.h, n := n, log := o.lb, phys := o.pb, s := s }

/-- Base address of half b (R37). -/
def Geometry.halfBase (g : Geometry) (b : Bool) : Nat := g.phys.toNat + b.toNat * g.s

/-- ACTIVE_BASE (R35): the base of the active half while a geometry is latched, else 0. -/
def State.activeBase (s : State) : DWord :=
  if s.initFlag then BitVec.ofNat 64 (s.geom.halfBase s.active) else 0

/-- HALF_SIZE (R34): G.S while a geometry is latched, else 0. -/
def State.halfSize (s : State) : Word :=
  if s.initFlag then BitVec.ofNat 32 s.geom.s else 0

/-- D: the base of the inactive half (R150). -/
def State.inactiveBase (s : State) : Nat := s.geom.halfBase (!s.active)

/-- The logical surface: what PRESENT reads (R67). -/
def State.sourceSpan (s : State) : Span := { lo := s.geom.log.toNat, len := s.geom.n }

/-- The texels of the inactive half: what PRESENT writes (R67). -/
def State.targetSpan (s : State) : Span :=
  { lo := s.inactiveBase, len := Config.bytesPerTexel * s.geom.n }

/-- The inactive half, padding and all (R37). -/
def State.inactiveSpan (s : State) : Span := { lo := s.inactiveBase, len := s.geom.s }

/-- Whether a PRESENT with a geometry is pending: without one it will end with ESTATE and no access (R151). -/
def State.presenting (s : State) : Bool :=
  match s.pending with
  | some { op := .present, raced := _ } => s.initFlag
  | _ => false

/-- The span a pending PRESENT is writing. -/
def State.presentTarget (s : State) : Option Span := if s.presenting then some s.targetSpan else none

/-! ### Colors -/

/-- A color table entry: A = 0, R, G, B from the top (R38, R183). -/
def packColor (r g b : Byte) : Word := 0#8 ++ r ++ g ++ b

/-- A shadow palette entry: the top 5, 6 and 5 bits of the channels (R184). -/
def pack565 (r g b : Byte) : Half := r.extractLsb' 3 5 ++ g.extractLsb' 2 6 ++ b.extractLsb' 3 5

/-- Red of decode565 (R190). -/
def red565 (p : Half) : Byte := p.extractLsb' 11 5 ++ 0#3

/-- Green of decode565 (R190). -/
def green565 (p : Half) : Byte := p.extractLsb' 5 6 ++ 0#2

/-- Blue of decode565 (R190). -/
def blue565 (p : Half) : Byte := p.extractLsb' 0 5 ++ 0#3

/-- The square of the difference of two channels, on integers (R191). -/
def squaredDifference (x y : Byte) : Nat :=
  let d : Int := (x.toNat : Int) - (y.toNat : Int)
  (d * d).toNat

/-- The squared distance of a query color from a shadow palette entry (R189, R191). -/
def colorDistance (r g b : Byte) (p : Half) : Nat :=
  squaredDifference r (red565 p) + squaredDifference g (green565 p) + squaredDifference b (blue565 p)

/-- The search loop of NEAREST over the entries from index `i` on, with the best index and distance so far: strict
less-than, and an exact match ends it (R189). -/
def nearestFrom (r g b : Byte) : List Half → Nat → Nat → Nat → Nat
  | [], _, best, _ => best
  | p :: ps, i, best, bestD =>
    let d := colorDistance r g b p
    if d = 0 then i
    else if d < bestD then nearestFrom r g b ps (i + 1) i d
    else nearestFrom r g b ps (i + 1) best bestD

/-- The index NEAREST answers (R189): the search starts with index 0 and distance 2^32 − 1. -/
def nearestIndex (r g b : Byte) (t : Table 16) : Byte :=
  BitVec.ofNat 8 (nearestFrom r g b t.toList 0 0 (2 ^ 32 - 1))

end Sys2Proof.Machine
end

