-- ==== Sys2Proof/Machine/Flags.lean ====
section
/-! DEFINITION. The STATUS register and its flags (spec/10_state.md R25, spec/60_exceptions.md R231), the statistics
trigger (spec/41_present.md R161), and the outputs to the consumer (R41). -/

namespace Sys2Proof.Machine

/-- The number of an error code in STATUS.ERR (R231). -/
def ErrCode.code : ErrCode → BitVec 4
  | .noError => 0
  | .eopcode => 1
  | .ebusy => 2
  | .estate => 3
  | .edim => 4
  | .ealign => 5
  | .erange => 6
  | .egamma => 7
  | .ebus => 8

/-- STATUS: 0^24 ++ ERR ++ STAT_DUE ++ INIT ++ ACTIVE ++ BUSY (R212). -/
def State.statusWord (s : State) : Word :=
  0#24 ++ s.err.code ++ BitVec.ofBool s.statDue ++ BitVec.ofBool s.initFlag ++ BitVec.ofBool s.active ++
    BitVec.ofBool s.busy

/-- STAT_DUE after a frame that leaves the counter at `count`: sticky, set at multiples of FRAMES_PER_STAT (R161). -/
def statDueAfter (statDue : Bool) (count : Word) : Bool :=
  statDue || count.toNat % Config.framesPerStat == 0

/-- out_valid (R41). -/
def State.outValid (s : State) : Bool := s.initFlag

/-- out_active (R41). -/
def State.outActive (s : State) : Bool := s.active

/-- out_active_base (R41). -/
def State.outActiveBase (s : State) : DWord := s.activeBase

/-- out_half_size (R41). -/
def State.outHalfSize (s : State) : Word := s.halfSize

/-- The `flip` output (R41). -/
def State.outFlip (s : State) : Bool := s.flip

end Sys2Proof.Machine
end

