-- ==== Sys2Proof/Machine/Control.lean ====
section
/-! DEFINITION. Control commands and register operations (spec/43_control.md), and the issue of a command word written
to CMD (spec/60_exceptions.md R233). -/

namespace Sys2Proof.Machine

/-! ### Commands performed at issue -/

/-- NOP: no effect (R97, R210). -/
def execNop (s : State) : Result := .next s

/-- ACK: clears STAT_DUE and/or ERR (R211). -/
def execAck (clrStat clrErr : Bool) (s : State) : Result :=
  .next { s with
    statDue := if clrStat then false else s.statDue
    err := if clrErr then .noError else s.err }

/-- A reserved opcode: rejected at issue with EOPCODE and no other effect (R95). -/
def execReservedOpcode (_w : Word) (s : State) : Result := .next (s.recordErr .eopcode)

/-- A command word with a reserved bit set: rejected at issue with EOPCODE and no other effect (R96). -/
def rejectWord (s : State) : Result := .next (s.recordErr .eopcode)

/-- `issue(w)`: the checks of a CMD write in their order, with the operands sampled at acceptance (R32, R233). -/
def issue (w : Word) (s : State) : Result :=
  match decodeCommand w with
  | .error _ => rejectWord s
  | .ok (.reservedOpcode v) => execReservedOpcode v s
  | .ok .nop => execNop s
  | .ok (.ack clrStat clrErr) => execAck clrStat clrErr s
  | .ok .init => .next (s.accept s.sampleInit)
  | .ok .shutdown => .next (s.accept .shutdown)
  | .ok .present => .next (s.accept .present)
  | .ok .setPalette => .next (s.accept s.samplePalette)
  | .ok (.setGamma level) => .next (s.accept (.setGamma level))
  | .ok (.nearest r g b) => .next (s.accept (.nearest r g b))

/-- A write of CMD presents its data as a command word (R24, R90). The port accepts the write whatever becomes of the
command (log entry 20). -/
def execWrCmd (data : Word) (s : State) : Result := issue data (s.respond .written)

/-! ### Writes the port accepts and ignores (R217, R219) -/

/-- A write with no effect. -/
def ignoreWrite (s : State) : Result := .next (s.respond .written)

/-- `wr STATUS, v`: ignored (R217). -/
def execWrStatus (_data : Word) (s : State) : Result := ignoreWrite s

/-- `wr GAMMA, v`: ignored (R217). -/
def execWrGamma (_data : Word) (s : State) : Result := ignoreWrite s

/-- `wr FRAME_COUNT, v`: ignored (R217). -/
def execWrFrameCount (_data : Word) (s : State) : Result := ignoreWrite s

/-- `wr HALF_SIZE, v`: ignored (R217). -/
def execWrHalfSize (_data : Word) (s : State) : Result := ignoreWrite s

/-- `wr ACTIVE_BASE_LO, v`: ignored (R217). -/
def execWrActiveBaseLo (_data : Word) (s : State) : Result := ignoreWrite s

/-- `wr ACTIVE_BASE_HI, v`: ignored (R217). -/
def execWrActiveBaseHi (_data : Word) (s : State) : Result := ignoreWrite s

/-- `wr NEAREST, v`: ignored (R217). -/
def execWrNearest (_data : Word) (s : State) : Result := ignoreWrite s

/-- A write in the CT window: ignored (R217). -/
def execWrCtWindow (_i : Byte) (_data : Word) (s : State) : Result := ignoreWrite s

/-- A write in the P565 window: ignored (R217). -/
def execWrP565Window (_i : Byte) (_data : Word) (s : State) : Result := ignoreWrite s

/-! ### Register reads -/

/-- `rd CMD`: 0, no effect (R218). -/
def execRdCmd (s : State) : Result := .next (s.respond (.data 0))

/-- `rd STATUS` (R212). -/
def execRdStatus (s : State) : Result := .next (s.respond (.data s.statusWord))

/-- `rd WIDTH`: zero-extended (R216). -/
def execRdWidth (s : State) : Result := .next (s.respond (.data (s.width.setWidth 32)))

/-- `rd HEIGHT`: zero-extended (R216). -/
def execRdHeight (s : State) : Result := .next (s.respond (.data (s.height.setWidth 32)))

/-- `rd LOG_BASE_LO` (R216). -/
def execRdLogBaseLo (s : State) : Result := .next (s.respond (.data (lo32 s.logBase)))

/-- `rd LOG_BASE_HI` (R216). -/
def execRdLogBaseHi (s : State) : Result := .next (s.respond (.data (hi32 s.logBase)))

/-- `rd PHYS_BASE_LO` (R216). -/
def execRdPhysBaseLo (s : State) : Result := .next (s.respond (.data (lo32 s.physBase)))

/-- `rd PHYS_BASE_HI` (R216). -/
def execRdPhysBaseHi (s : State) : Result := .next (s.respond (.data (hi32 s.physBase)))

/-- `rd PAL_SRC_LO` (R216). -/
def execRdPalSrcLo (s : State) : Result := .next (s.respond (.data (lo32 s.palSrc)))

/-- `rd PAL_SRC_HI` (R216). -/
def execRdPalSrcHi (s : State) : Result := .next (s.respond (.data (hi32 s.palSrc)))

/-- `rd FRAME_COUNT` (R213). -/
def execRdFrameCount (s : State) : Result := .next (s.respond (.data s.frameCount))

/-- `rd HALF_SIZE` (R214). -/
def execRdHalfSize (s : State) : Result := .next (s.respond (.data s.halfSize))

/-- `rd ACTIVE_BASE_LO` (R215). -/
def execRdActiveBaseLo (s : State) : Result := .next (s.respond (.data (lo32 s.activeBase)))

/-- `rd ACTIVE_BASE_HI` (R215). -/
def execRdActiveBaseHi (s : State) : Result := .next (s.respond (.data (hi32 s.activeBase)))

/-- A reserved offset: a read gives 0, a write is ignored (R219). -/
def execReservedOffset (_offset : BitVec 12) (dir : Direction) (s : State) : Result :=
  match dir with
  | .read => .next (s.respond (.data 0))
  | .write _ => ignoreWrite s

end Sys2Proof.Machine
end

