-- ==== Sys2Proof/Machine/FrameBuffer.lean ====
section
/-! DEFINITION. Frame buffer manager operations (spec/40_frame_buffer_manager.md): the geometry registers, INIT and
SHUTDOWN. A meaning of INIT or SHUTDOWN is its completion step (log entry 5). -/

namespace Sys2Proof.Machine

/-- `wr WIDTH, v`: WIDTH[15:0] <- v[15:0] (R120). -/
def execWrWidth (data : Word) (s : State) : Result :=
  .next ({ s with width := data.extractLsb' 0 16 }.respond .written)

/-- `wr HEIGHT, v`: HEIGHT[15:0] <- v[15:0] (R121). -/
def execWrHeight (data : Word) (s : State) : Result :=
  .next ({ s with height := data.extractLsb' 0 16 }.respond .written)

/-- `wr LOG_BASE_LO, v` (R122). -/
def execWrLogBaseLo (data : Word) (s : State) : Result :=
  .next ({ s with logBase := setLo32 s.logBase data }.respond .written)

/-- `wr LOG_BASE_HI, v` (R122). -/
def execWrLogBaseHi (data : Word) (s : State) : Result :=
  .next ({ s with logBase := setHi32 s.logBase data }.respond .written)

/-- `wr PHYS_BASE_LO, v` (R123). -/
def execWrPhysBaseLo (data : Word) (s : State) : Result :=
  .next ({ s with physBase := setLo32 s.physBase data }.respond .written)

/-- `wr PHYS_BASE_HI, v` (R123). -/
def execWrPhysBaseHi (data : Word) (s : State) : Result :=
  .next ({ s with physBase := setHi32 s.physBase data }.respond .written)

/-- The state after a successful INIT latched a geometry (R125, R130). -/
def State.latch (s : State) (g : Geometry) : State :=
  { s with pending := none, geom := g, active := false, statDue := false, frameCount := 0, initFlag := true }

/-- INIT, completion step (R125 to R130). -/
def execInit (s : State) : Result :=
  if s.initFlag then .next (s.raiseErr .estate)
  else match geometryOf s.initOperands with
    | .error code => .next (s.raiseErr code)
    | .ok g => .next (s.latch g)

/-- SHUTDOWN, completion step (R131). -/
def execShutdown (s : State) : Result :=
  if s.initFlag then .next ({ s with initFlag := false }.complete)
  else .next (s.raiseErr .estate)

end Sys2Proof.Machine
end

