-- ==== Sys2Proof/Machine/Palette.lean ====
section
/-! DEFINITION. Palette commands and table reads (spec/42_palette.md). A meaning of SET_PALETTE, SET_GAMMA or NEAREST is
its completion step (log entry 5). -/

namespace Sys2Proof.Machine

/-- `wr PAL_SRC_LO, v` (R180). -/
def execWrPalSrcLo (data : Word) (s : State) : Result :=
  .next ({ s with palSrc := setLo32 s.palSrc data }.respond .written)

/-- `wr PAL_SRC_HI, v` (R180). -/
def execWrPalSrcHi (data : Word) (s : State) : Result :=
  .next ({ s with palSrc := setHi32 s.palSrc data }.respond .written)

/-- Channel c (0 red, 1 green, 2 blue) of triple i after the gamma lookup (R182, R183). -/
def State.channel (s : State) (i : Byte) (c : Nat) : Byte :=
  Config.gammaLut s.gamma (s.mem.read (s.paletteSource + 3 * i.toNat + c))

/-- Whether another agent wrote a byte of triple i since the SET_PALETTE was accepted (R76). -/
def State.tripleRaced (s : State) (i : Byte) : Bool :=
  [0, 1, 2].any fun c => s.raced.contains (s.paletteSource + 3 * i.toNat + c)

/-- CTn[i]: the packed gamma-corrected triple (R183), or any value with bits [31:24] 0 where it is raced (R76). -/
def State.stagedColor (s : State) (i : Byte) : Word :=
  if s.tripleRaced i then 0#8 ++ Config.freeColor s.fresh i.toNat
  else packColor (s.channel i 0) (s.channel i 1) (s.channel i 2)

/-- P565n[i]: the truncated gamma-corrected triple (R184), or any value where it is raced (R76). -/
def State.staged565 (s : State) (i : Byte) : Half :=
  if s.tripleRaced i then Config.freeEntry565 s.fresh i.toNat
  else pack565 (s.channel i 0) (s.channel i 1) (s.channel i 2)

/-- The span SET_PALETTE reads (R67). -/
def State.paletteSpan (s : State) : Span := { lo := s.paletteSource, len := Config.paletteBytes }

/-- What the memory accesses of SET_PALETTE meet (R67, R82). -/
def State.palettePort (s : State) : PortResult := s.portResult [s.paletteSpan]

/-- The staging storage filled with the new tables (R40, R181). -/
def State.stageTables (s : State) : State :=
  { s with stageCt := Table.of s.stagedColor, stageP565 := Table.of s.staged565 }

/-- The staging storage after a read met a bus error: no rule says what it holds (R40; log entry 14). -/
def State.stageUnknown (s : State) : State :=
  { s with
    stageCt := Table.of (fun i => Config.freeTexel s.fresh i.toNat)
    stageP565 := Table.of (fun i => Config.freeEntry565 s.fresh i.toNat) }

/-- CT <- CTn; P565 <- P565n, in one step (R185). -/
def State.commitTables (s : State) : State := { s with ct := s.stageCt, p565 := s.stageP565 }

/-- SET_PALETTE, completion step (R181 to R186). -/
def execSetPalette (s : State) : Result :=
  if Config.addressSpace < s.paletteSource + Config.paletteBytes then .next (s.raiseErr .erange)
  else match s.palettePort with
    | .device => .fault .deviceMemory
    | .noResponse => .next s
    | .error => .next (s.stageUnknown.draw.raiseErr .ebus)
    | .ok => .next s.stageTables.commitTables.draw.complete

/-- SET_GAMMA, completion step (R187, R188). -/
def execSetGamma (level : Byte) (s : State) : Result :=
  if Config.numGammaLevels ≤ level.toNat then .next (s.raiseErr .egamma)
  else .next ({ s with gamma := level }.complete)

/-- NEAREST, completion step (R189 to R193). -/
def execNearest (r g b : Byte) (s : State) : Result :=
  .next ({ s with nearest := nearestIndex r g b s.p565 }.complete)

/-- `rd CT[i]` (R194). -/
def execRdCt (i : Byte) (s : State) : Result := .next (s.respond (.data (s.ct.get i)))

/-- `rd P565[i]`: zero-extended (R195). -/
def execRdP565 (i : Byte) (s : State) : Result := .next (s.respond (.data ((s.p565.get i).setWidth 32)))

/-- `rd GAMMA`: zero-extended (R196). -/
def execRdGamma (s : State) : Result := .next (s.respond (.data (s.gamma.setWidth 32)))

/-- `rd NEAREST`: zero-extended (R197). -/
def execRdNearest (s : State) : Result := .next (s.respond (.data (s.nearest.setWidth 32)))

end Sys2Proof.Machine
end

