-- ==== Sys2Proof/Machine/Present.lean ====
section
/-! DEFINITION. PRESENT (spec/41_present.md): conversion of the logical surface into the inactive half, the flip, the
frame counter and the statistics trigger, in the command's completion step. -/

namespace Sys2Proof.Machine

/-- p_j: the palette index of pixel j (R124, R150). -/
def State.pixel (s : State) (j : Nat) : Byte := s.mem.read (s.geom.log.toNat + j)

/-- Whether another agent wrote pixel 2k or 2k + 1 since the PRESENT was accepted (R76). -/
def State.pairRaced (s : State) (k : Nat) : Bool :=
  s.raced.contains (s.geom.log.toNat + 2 * k) || s.raced.contains (s.geom.log.toNat + 2 * k + 1)

/-- Texel j: CT[p_j] (R153), or any 32-bit value where its pair is raced (R76). -/
def State.texel (s : State) (j : Nat) : Word :=
  if s.pairRaced (j / 2) then Config.freeTexel s.fresh j else s.ct.get (s.pixel j)

/-- The 64-bit word of pair k: texel 2k in the low lane, texel 2k + 1 in the high lane (R154). -/
def State.pairWord (s : State) (k : Nat) : DWord := s.texel (2 * k + 1) ++ s.texel (2 * k)

/-- Memory after all G.N/2 pair writes (R150, R152). -/
def State.converted (s : State) : Memory :=
  s.mem.writePairs s.inactiveBase s.pairWord (s.geom.n / 2)

/-- Memory in which the bytes of the inactive half that other agents wrote since acceptance hold any value (R77). -/
def State.raceBytes (s : State) (m : Memory) : Memory :=
  m.scribble (fun a => Config.freeByte s.fresh (a - s.inactiveBase)) (s.raced.filter s.inactiveSpan.contains)

/-- Memory after a successful PRESENT. -/
def State.presented (s : State) : Memory := s.raceBytes s.converted

/-- Memory whose target bytes hold any values: after EBUS (R162) and after a reset that aborts PRESENT (R261). -/
def State.scrambled (s : State) : Memory :=
  s.mem.fill s.inactiveBase (Config.freeByte s.fresh) (Config.bytesPerTexel * s.geom.n)

/-- Memory after a PRESENT that met a bus error (R162). -/
def State.spoiled (s : State) : Memory := s.raceBytes s.scrambled

/-- What the memory accesses of PRESENT meet (R67, R82). -/
def State.presentPort (s : State) : PortResult := s.portResult [s.sourceSpan, s.targetSpan]

/-- The state after a successful PRESENT (R157, R158, R160, R161). -/
def State.flipTo (s : State) (m : Memory) : State :=
  { s with
    pending := none
    mem := m
    active := !s.active
    frameCount := s.frameCount + 1
    statDue := statDueAfter s.statDue (s.frameCount + 1)
    flip := true
    fresh := s.fresh + 1 }

/-- PRESENT, completion step (R150 to R165). A memory access that never gets a response leaves it pending (R246). -/
def execPresent (s : State) : Result :=
  if !s.initFlag then .next (s.raiseErr .estate)
  else match s.presentPort with
    | .device => .fault .deviceMemory
    | .noResponse => .next s
    | .error => .next ((s.setMem s.spoiled).draw.raiseErr .ebus)
    | .ok => .next (s.flipTo s.presented)

end Sys2Proof.Machine
end

