-- ==== Sys2Proof/Machine/Dispatch.lean ====
section
/-! DEFINITION. Every operation of the ICC and its meaning. For the six commands that can be pending the meaning is
their completion step; for NOP, ACK and RESERVED_OPCODE it is what their CMD write does; for a register operation it is
the access (log entry 5). -/

namespace Sys2Proof.Machine

def exec (i : Instr) (s : State) : Host.Outcome State Fault Refusal :=
  match i with
  | .nop => Sys2Proof.Machine.execNop s
  | .init => Sys2Proof.Machine.execInit s
  | .shutdown => Sys2Proof.Machine.execShutdown s
  | .present => Sys2Proof.Machine.execPresent s
  | .setPalette => Sys2Proof.Machine.execSetPalette s
  | .setGamma level => Sys2Proof.Machine.execSetGamma level s
  | .nearest r g b => Sys2Proof.Machine.execNearest r g b s
  | .ack clrStat clrErr => Sys2Proof.Machine.execAck clrStat clrErr s
  | .wrCmd data => Sys2Proof.Machine.execWrCmd data s
  | .wrWidth data => Sys2Proof.Machine.execWrWidth data s
  | .wrHeight data => Sys2Proof.Machine.execWrHeight data s
  | .wrLogBaseLo data => Sys2Proof.Machine.execWrLogBaseLo data s
  | .wrLogBaseHi data => Sys2Proof.Machine.execWrLogBaseHi data s
  | .wrPhysBaseLo data => Sys2Proof.Machine.execWrPhysBaseLo data s
  | .wrPhysBaseHi data => Sys2Proof.Machine.execWrPhysBaseHi data s
  | .wrPalSrcLo data => Sys2Proof.Machine.execWrPalSrcLo data s
  | .wrPalSrcHi data => Sys2Proof.Machine.execWrPalSrcHi data s
  | .wrStatus data => Sys2Proof.Machine.execWrStatus data s
  | .wrGamma data => Sys2Proof.Machine.execWrGamma data s
  | .wrFrameCount data => Sys2Proof.Machine.execWrFrameCount data s
  | .wrHalfSize data => Sys2Proof.Machine.execWrHalfSize data s
  | .wrActiveBaseLo data => Sys2Proof.Machine.execWrActiveBaseLo data s
  | .wrActiveBaseHi data => Sys2Proof.Machine.execWrActiveBaseHi data s
  | .wrNearest data => Sys2Proof.Machine.execWrNearest data s
  | .wrCtWindow k data => Sys2Proof.Machine.execWrCtWindow k data s
  | .wrP565Window k data => Sys2Proof.Machine.execWrP565Window k data s
  | .rdCmd => Sys2Proof.Machine.execRdCmd s
  | .rdStatus => Sys2Proof.Machine.execRdStatus s
  | .rdWidth => Sys2Proof.Machine.execRdWidth s
  | .rdHeight => Sys2Proof.Machine.execRdHeight s
  | .rdLogBaseLo => Sys2Proof.Machine.execRdLogBaseLo s
  | .rdLogBaseHi => Sys2Proof.Machine.execRdLogBaseHi s
  | .rdPhysBaseLo => Sys2Proof.Machine.execRdPhysBaseLo s
  | .rdPhysBaseHi => Sys2Proof.Machine.execRdPhysBaseHi s
  | .rdPalSrcLo => Sys2Proof.Machine.execRdPalSrcLo s
  | .rdPalSrcHi => Sys2Proof.Machine.execRdPalSrcHi s
  | .rdGamma => Sys2Proof.Machine.execRdGamma s
  | .rdFrameCount => Sys2Proof.Machine.execRdFrameCount s
  | .rdHalfSize => Sys2Proof.Machine.execRdHalfSize s
  | .rdActiveBaseLo => Sys2Proof.Machine.execRdActiveBaseLo s
  | .rdActiveBaseHi => Sys2Proof.Machine.execRdActiveBaseHi s
  | .rdNearest => Sys2Proof.Machine.execRdNearest s
  | .rdCt k => Sys2Proof.Machine.execRdCt k s
  | .rdP565 k => Sys2Proof.Machine.execRdP565 k s
  | .reservedOffset offset dir => Sys2Proof.Machine.execReservedOffset offset dir s
  | .reservedOpcode w => Sys2Proof.Machine.execReservedOpcode w s

end Sys2Proof.Machine
end

