-- ==== Sys2Proof/Machine/Events.lean ====
section
/-! DEFINITION. One event of the world of the ICC (log entry 2): host accesses, the engine's completion step, reset
(spec/70_reset_and_hazards.md R260, R261), other agents' memory accesses (spec/20_memory.md R76, R77), and how the host
places an instruction so that the next step runs it (log entry 4). -/

namespace Sys2Proof.Machine

/-- A host access: its operation, or a bus error and no effect where it is no 32-bit access at an aligned offset
(R64, R236). -/
def runAccess (a : Access) (s : State) : Result :=
  match decode (.access a) with
  | .ok i => exec i s
  | .error _ => .next (s.respond .busError)

/-- The engine's step: the pending command completes; with none pending the engine waits (R32, R262). -/
def runEngine (s : State) : Result :=
  match s.pending with
  | some p => exec p.op.toInstr s
  | none => .next s

/-- Reset (R260, R261): every register, table and output of the ICC takes its reset value and memory is kept, but the
bytes an aborted PRESENT was writing hold any value and may still be written. -/
def State.resetInput (s : State) : State :=
  { State.reset with
    mem := if s.presentTarget.isSome then s.scrambled else s.mem
    inflight := s.presentTarget.toList ++ s.inflight
    bus := s.bus
    inbox := s.inbox
    fresh := s.fresh + 1 }

/-- Another agent's write of a byte: performed at memory, and noted while a command is pending (R76, R77). DESIGN CHOICE
(log entry 21): so too at an address in an error, silent or device span of the bus map, where the spec is silent. -/
def State.agentWrites (s : State) (a : Nat) (v : Byte) : State :=
  { s with
    mem := s.mem.write a v
    pending := s.pending.map fun p => { p with raced := a :: p.raced } }

/-- Another agent's read of a byte: any value in the inactive half while a PRESENT is pending (R77), else the byte in
memory. DESIGN CHOICE (log entry 21): so too at an address in an error, silent or device span of the bus map, where the
spec is silent. -/
def State.agentReads (s : State) (a : Nat) : State :=
  if s.presenting && s.inactiveSpan.contains a then
    (s.respond (.memByte (Config.freeByte s.fresh 0))).draw
  else s.respond (.memByte (s.mem.read a))

/-- A write of an aborted PRESENT lands: any value, only inside a span that PRESENT was writing (R261), and
whatever the bus map has there (DESIGN CHOICE, log entry 21). -/
def State.lateWrites (s : State) (a : Nat) : State :=
  if s.inflight.any fun r => r.contains a then
    (s.agentWrites a (Config.freeByte s.fresh 0)).draw
  else s

/-- What an event does. -/
def runEvent (e : Event) (s : State) : Result :=
  match e with
  | .access a => runAccess a s
  | .engine => runEngine s
  | .reset => .next s.resetInput
  | .agentWrite a v => .next (s.agentWrites a.toNat v)
  | .agentRead a => .next (s.agentReads a.toNat)
  | .lateWrite a => .next (s.lateWrites a.toNat)
  | .bus regions => .next { s with bus := regions }

/-- The event of the next step: the oldest waiting one; where none waits, the engine moves (log entry 2). -/
def State.nextEvent (s : State) : Event :=
  match s.inbox with
  | [] => .engine
  | e :: _ => e

/-- The state in which the next event acts: the event is taken, the pulses of the step before are over. -/
def State.takeEvent (s : State) : State := { s with inbox := s.inbox.tail }.beginStep

/-- One step: the next event acts. -/
def runNext (s : State) : Result := runEvent s.nextEvent s.takeEvent

/-- The pending operation the acceptance of a command makes, with the operands it samples (R32); NOP, ACK and reserved
opcodes are never pending. -/
def Command.sample (c : Command) (s : State) : Option PendingOp :=
  match c with
  | .nop => none
  | .init => some s.sampleInit
  | .shutdown => some .shutdown
  | .present => some .present
  | .setPalette => some s.samplePalette
  | .setGamma level => some (.setGamma level)
  | .nearest r g b => some (.nearest r g b)
  | .ack _ _ => none
  | .reservedOpcode _ => none

/-- The state in which the next step runs an encoding (log entry 4): an access waits first at the port; a command that
completes later has been accepted, with its operands sampled, and the engine moves next; every other command word waits
at the port as a write of CMD. -/
def State.place (s : State) (e : Encoding) : State :=
  match e with
  | .access a => { s with inbox := .access a :: s.inbox }
  | .command w =>
    match (decodeCommand w).toOption.bind fun c => Command.sample c s with
    | some op => { s with pending := some { op := op, raced := [] }, inbox := .engine :: s.inbox }
    | none => { s with inbox := .access { offset := 0x000#12, size := .b4, dir := .write w } :: s.inbox }

end Sys2Proof.Machine
end

