-- ==== Sys2Proof/Machine/Step.lean ====
section
/-! DEFINITION. One step of the machine, and the state in which the next step runs a given instruction. -/

namespace Sys2Proof.Machine

/-- One step: the next event of the inbox acts, or the engine where none waits (spec/10_state.md R20, R32;
spec/20_memory.md R72). -/
def step (s : State) : Host.Outcome State Fault Refusal := runNext s

/-- `s` with an instruction of spec/opcode_table.json placed where the next step runs it (log entries 3 and 4). -/
def State.withFetchWord (s : State) (nbits w : Nat) : State := s.place (tableEncoding nbits w)

end Sys2Proof.Machine
end

