-- ==== Sys2Proof/Safety.lean ====
section
/-! DEFINITION. The terms of the claims: the invariant of the machine, what a safe run is, and readings of the spec's
tables and formulas written independently of the meanings they are compared with. -/

namespace Sys2Proof.Machine

/-! ### The invariant -/

/-- A geometry that INIT can latch (spec/40_frame_buffer_manager.md R127, R128, R129, R37). -/
structure Geometry.Legal (g : Geometry) : Prop where
  pixels : g.n = g.w.toNat * g.h.toNat
  positive : 0 < g.n
  blocks : g.n % 16 = 0
  bounded : 4 * g.n ≤ 2 ^ 31
  half : g.s = nextPow2 (4 * g.n)
  aligned : g.phys.toNat % 8 = 0
  logicalFits : g.log.toNat + g.n ≤ 2 ^ 64
  physicalFits : g.phys.toNat + 2 * g.s ≤ 2 ^ 64
  disjoint : g.log.toNat + g.n ≤ g.phys.toNat ∨ g.phys.toNat + 2 * g.s ≤ g.log.toNat

/-- What every step keeps: memory in canonical form, a gamma level that exists (R31), a legal geometry while one is
latched (R37), and a color table whose alpha is zero (R38). -/
structure State.Inv (s : State) : Prop where
  memory : s.mem.wf
  gammaLevel : s.gamma.toNat < Config.numGammaLevels
  geometry : s.initFlag = true → s.geom.Legal
  alpha : ∀ i, (s.ct.get i).extractLsb' 24 8 = 0

/-! ### The bus -/

/-- No bus region touches a span: every access in it is answered with data. -/
def State.Clear (s : State) (q : Span) : Prop := ∀ r ∈ s.bus, r.span.overlaps q = false

/-- No bus region of a kind touches a span. -/
def State.ClearOf (s : State) (kind : BusKind) (q : Span) : Prop :=
  ∀ r ∈ s.bus, r.kind = kind → r.span.overlaps q = false

/-- A bus region of a kind touches a span. -/
def State.Hits (s : State) (kind : BusKind) (q : Span) : Prop :=
  ∃ r ∈ s.bus, r.kind = kind ∧ r.span.overlaps q = true

/-- No other agent wrote a byte of a span since the pending command was accepted. -/
def State.Unraced (s : State) (q : Span) : Prop := ∀ a ∈ s.raced, q.contains a = false

/-! ### The register map of R23 and R102 -/

/-- What a 32-bit read at an aligned offset returns (R102). -/
def State.registerValue (s : State) (offset : Nat) : Word :=
  if offset = 0x004 then s.statusWord
  else if offset = 0x008 then s.width.setWidth 32
  else if offset = 0x00C then s.height.setWidth 32
  else if offset = 0x010 then s.logBase.extractLsb' 0 32
  else if offset = 0x014 then s.logBase.extractLsb' 32 32
  else if offset = 0x018 then s.physBase.extractLsb' 0 32
  else if offset = 0x01C then s.physBase.extractLsb' 32 32
  else if offset = 0x020 then s.palSrc.extractLsb' 0 32
  else if offset = 0x024 then s.palSrc.extractLsb' 32 32
  else if offset = 0x028 then s.gamma.setWidth 32
  else if offset = 0x02C then s.frameCount
  else if offset = 0x030 then s.outHalfSize
  else if offset = 0x034 then s.outActiveBase.extractLsb' 0 32
  else if offset = 0x038 then s.outActiveBase.extractLsb' 32 32
  else if offset = 0x03C then s.nearest.setWidth 32
  else if 0x400 ≤ offset ∧ offset < 0x800 then s.ct.get (BitVec.ofNat 8 ((offset - 0x400) / 4))
  else if 0x800 ≤ offset ∧ offset < 0xC00 then (s.p565.get (BitVec.ofNat 8 ((offset - 0x800) / 4))).setWidth 32
  else 0

/-! ### Command words, bit by bit (R92 to R96) -/

/-- The reserved bits of a command word with a defined OP (R93, R94, R96). -/
def reservedBit (op bit : Nat) : Bool :=
  4 ≤ bit && bit < 32 && (bit < 8 || op ≤ 4 || (op == 5 && 16 ≤ bit) || (op == 7 && 10 ≤ bit))

/-- A word R95 or R96 calls illegal. -/
def IllegalWord (w : Word) : Prop :=
  8 ≤ w.toNat % 16 ∨ ∃ bit, reservedBit (w.toNat % 16) bit = true ∧ w.getLsbD bit = true

/-- `cmd set_gamma L` (R99). -/
def setGammaWord (level : Byte) : Word := (level.setWidth 32 <<< 8) ||| 0x5#32

/-- `cmd nearest r, g, b` (R99). -/
def nearestWord (r g b : Byte) : Word :=
  (b.setWidth 32 <<< 24) ||| (g.setWidth 32 <<< 16) ||| (r.setWidth 32 <<< 8) ||| 0x6#32

/-- `cmd ack [stat] [err]` (R99). -/
def ackWord (clrStat clrErr : Bool) : Word :=
  ((BitVec.ofBool clrErr).setWidth 32 <<< 9) ||| ((BitVec.ofBool clrStat).setWidth 32 <<< 8) ||| 0x7#32

/-- A write of a command word to CMD. -/
def cmdWrite (w : Word) : Event := .access { offset := 0x000#12, size := .b4, dir := .write w }

/-- STATUS.ERR after `record(code)` (R234). -/
def recorded (err code : ErrCode) : ErrCode := if err = .noError then code else err

/-- The codes that each command raises at its completion, by the column "raised by" of R231. -/
def PendingOp.raises : PendingOp → List ErrCode
  | .init _ _ _ _ => [.estate, .edim, .ealign, .erange]
  | .shutdown => [.estate]
  | .present => [.estate, .ebus]
  | .setPalette _ => [.erange, .ebus]
  | .setGamma _ => [.egamma]
  | .nearest _ _ _ => []

/-! ### Memory words and colors -/

/-- MemRead(a, 4): the byte at the lowest address in bits [7:0] (R9, R61). -/
def Memory.read32 (m : Memory) (a : Nat) : Word :=
  m.read (a + 3) ++ m.read (a + 2) ++ m.read (a + 1) ++ m.read a

/-- MemRead(a, 8) (R9, R61). -/
def Memory.read64 (m : Memory) (a : Nat) : DWord :=
  m.read (a + 7) ++ m.read (a + 6) ++ m.read (a + 5) ++ m.read (a + 4) ++ m.read (a + 3) ++ m.read (a + 2) ++
    m.read (a + 1) ++ m.read a

/-- decode565 on numbers (R190). -/
def decoded565 (p : Half) : Int × Int × Int :=
  ((p.toNat / 2 ^ 11 * 8 : Nat), (p.toNat / 2 ^ 5 % 64 * 4 : Nat), (p.toNat % 32 * 8 : Nat))

/-- d of R189 and R191 for one entry, on integers. -/
def squaredDistance (r g b : Byte) (p : Half) : Int :=
  ((r.toNat : Int) - (decoded565 p).1) ^ 2 + ((g.toNat : Int) - (decoded565 p).2.1) ^ 2 +
    ((b.toNat : Int) - (decoded565 p).2.2) ^ 2

/-- (r << 16) | (g << 8) | b (R183). -/
def shiftedColor (r g b : Byte) : Word := (r.setWidth 32 <<< 16) ||| (g.setWidth 32 <<< 8) ||| b.setWidth 32

/-- (r >> 3) << 11 | (g >> 2) << 5 | (b >> 3) (R184). -/
def shifted565 (r g b : Byte) : Half :=
  ((r.setWidth 16 >>> 3) <<< 11) ||| ((g.setWidth 16 >>> 2) <<< 5) ||| (b.setWidth 16 >>> 3)

/-! ### Steps -/

/-- The next step is the completion step of a pending operation. -/
def State.Completing (s : State) (op : PendingOp) : Prop :=
  s.nextEvent = .engine ∧ ∃ raced, s.pending = some { op := op, raced := raced }

/-- The next step is the 32-bit write access of some value at an offset. -/
def State.Writing (s : State) (offset : BitVec 12) : Prop :=
  ∃ v, s.nextEvent = .access { offset := offset, size := .b4, dir := .write v }

/-- The state of the ICC after reset, register by register, with its outputs (R44). -/
structure State.ResetValues (t : State) : Prop where
  pending : t.pending = none
  status : t.statusWord = 0
  flags : t.active = false ∧ t.initFlag = false ∧ t.statDue = false ∧ t.err = .noError
  size : t.width = 0 ∧ t.height = 0
  bases : t.logBase = 0 ∧ t.physBase = 0 ∧ t.palSrc = 0
  gamma : t.gamma = 0
  frameCount : t.frameCount = 0
  nearest : t.nearest = 0
  geometry : t.geom.w = 0 ∧ t.geom.h = 0 ∧ t.geom.n = 0 ∧ t.geom.log = 0 ∧ t.geom.phys = 0 ∧ t.geom.s = 0
  colors : ∀ i, t.ct.get i = 0x00000000#32
  shadow : ∀ i, t.p565.get i = 0x0000#16
  outputs : t.outValid = false ∧ t.outActive = false ∧ t.outActiveBase = 0 ∧ t.outHalfSize = 0 ∧ t.outFlip = false

/-- The state after a successful PRESENT that left a memory: one texel half more, the flip, the counter, the trigger
(R157, R158, R160, R161). -/
def State.afterFrame (s : State) (m : Memory) : State :=
  { s with
    pending := none
    mem := m
    active := !s.active
    frameCount := s.frameCount + 1
    statDue := s.statDue || decide ((s.frameCount + 1).toNat % 512 = 0)
    flip := true
    fresh := s.fresh + 1 }

/-! ### Runs -/

/-- The events of `k` frames with nothing between: `cmd present`, then the engine's step (R100 `frame`). -/
def frames : Nat → List Event
  | 0 => []
  | k + 1 => cmdWrite 0x3#32 :: .engine :: frames k

/-- A run is safe where it never stops: with no device memory on the bus map and none to come (R68). -/
def State.NoDevice (s : State) : Prop :=
  (∀ r ∈ s.bus, r.kind ≠ .device) ∧ ∀ rs, .bus rs ∈ s.inbox → ∀ r ∈ rs, r.kind ≠ .device

/-- The memory port always answers, now and later (the premise of R246). -/
def State.Answers (s : State) : Prop :=
  (∀ r ∈ s.bus, r.kind = .error) ∧ ∀ rs, .bus rs ∈ s.inbox → ∀ r ∈ rs, r.kind = .error

end Sys2Proof.Machine
end

