-- ==== Sys2Proof/Certificates/Slice0/Obligations.lean ====
section
/-! DEFINITION. The statements about the ICC for the provers. Each docstring names the rules of spec/ it formalises. -/

open Sys2Proof Sys2Proof.Machine

/-! ### Parameters and sizes -/

/-- R7 with R6: the configuration of this model is a legal one, whatever the OPEN parameters are. -/
def Obligations.ConfigurationIsLegal : Prop :=
  2 ^ 32 % Config.framesPerStat = 0 ∧ 1 ≤ Config.numGammaLevels ∧ Config.numGammaLevels ≤ 256 ∧
    ∀ v : Byte, Config.gammaLut 0 v = v

/-- R9: next_pow2(x) for x ≥ 1 is the least power of two that is at least x. -/
def Obligations.NextPow2IsTheLeastPower : Prop :=
  ∀ x : Nat, 1 ≤ x →
    (∃ k, nextPow2 x = 2 ^ k) ∧ x ≤ nextPow2 x ∧ ∀ k, x ≤ 2 ^ k → nextPow2 x ≤ 2 ^ k

/-! ### Encoding -/

/-- R93, R94, R102: decoding the encoding of any well-formed operation gives it back, with every operand. -/
def Obligations.DecodeOfEncodeIsTheOperation : Prop :=
  ∀ i : Instr, i.wellFormed = true → decode (encode i) = .ok i

/-- R101: every 32-bit word either is the encoding of exactly the command it decodes to, or is rejected for a reserved
bit. -/
def Obligations.EveryCommandWordHasOneMeaning : Prop :=
  ∀ w : Word,
    (∃ c, decodeCommand w = .ok c ∧ encodeCommand c = w ∧ c.toInstr.wellFormed = true) ∨
      decodeCommand w = .error .reservedBits

/-- R94, R99, R102: words and accesses written out from the spec's tables decode to the operation they stand for. -/
def Obligations.HandWrittenEncodingsDecode : Prop :=
  decode (.command 0x00000001#32) = .ok .init ∧
  decode (.command 0x00000305#32) = .ok (.setGamma 3) ∧
  decode (.command 0x050AFA06#32) = .ok (.nearest 250 10 5) ∧
  decode (.command 0x00000307#32) = .ok (.ack true true) ∧
  decode (.command 0x00000009#32) = .ok (.reservedOpcode 0x00000009#32) ∧
  decode (.command 0x00000103#32) = .error .reservedBits ∧
  decode (.access { offset := 0x008#12, size := .b4, dir := .write 0x00000140#32 }) = .ok (.wrWidth 0x00000140#32) ∧
  decode (.access { offset := 0x810#12, size := .b4, dir := .read }) = .ok (.rdP565 4) ∧
  decode (.access { offset := 0xC00#12, size := .b4, dir := .read }) = .ok (.reservedOffset 0xC00#12 .read)

/-! ### Reset -/

/-- R44, R260: reset puts every piece of ICC state into its reset value in one step from any state; system memory keeps
what it held, but for the target of a PRESENT that the reset aborts (R261). -/
def Obligations.ResetInputRestoresTheResetValues : Prop :=
  ∀ (s : State) (es : List Event), s.mem.wf → s.inbox = .reset :: es →
    ∃ t, step s = .next t ∧ t.inbox = es ∧ t.ResetValues ∧
      ∀ a, s.presenting = false ∨ s.targetSpan.contains a = false → t.mem.read a = s.mem.read a

/-- R44: the machine right after reset holds those values. -/
def Obligations.ResetStateHoldsTheResetValues : Prop := State.reset.ResetValues

/-- R261: a reset aborts the pending command with no error; every byte an aborted PRESENT was writing has a free value
and may be written again later, with any value and nowhere else (by the event of log entry 13); the tables of an aborted
SET_PALETTE are the reset tables. -/
def Obligations.ResetAbortsThePendingCommand : Prop :=
  (∀ (s : State) (es : List Event) (p : Pending), s.mem.wf → s.inbox = .reset :: es → s.pending = some p →
    ∃ t, step s = .next t ∧ t.pending = none ∧ t.busy = false ∧ t.err = .noError ∧ t.flip = false ∧ t.active = false ∧
      (s.presenting = true →
        s.targetSpan ∈ t.inflight ∧
        ∀ a, s.targetSpan.contains a = true → a < 2 ^ 64 →
          t.mem.read a = Config.freeByte s.fresh (a - s.targetSpan.lo)) ∧
      (∀ ps, p.op = .setPalette ps → ∀ i, t.ct.get i = 0 ∧ t.p565.get i = 0)) ∧
  (∀ (s : State) (es : List Event) (a : DWord), s.mem.wf → s.inbox = .lateWrite a :: es →
    ∃ t, step s = .next t ∧ (∀ b, b ≠ a.toNat → t.mem.read b = s.mem.read b) ∧
      ((∃ r ∈ s.inflight, r.contains a.toNat = true) → t.mem.read a.toNat = Config.freeByte s.fresh 0) ∧
      ((∀ r ∈ s.inflight, r.contains a.toNat = false) → t.mem = s.mem))

/-! ### The step -/

/-- R20, R32, R72 (log entry 2): a step runs the operation the next access decodes to, or completes the pending command,
or waits; around it, the event is taken and the pulses of the step before end. -/
def Obligations.StepRunsTheDecodedOperation : Prop :=
  (∀ (s : State) (a : Access) (es : List Event) (i : Instr), s.inbox = .access a :: es → decode (.access a) = .ok i →
    step s = exec i { s with inbox := es, flip := false, resp := .none }) ∧
  (∀ (s : State) (p : Pending), s.inbox = [] ∨ (∃ es, s.inbox = .engine :: es) → s.pending = some p →
    step s = exec p.op.toInstr { s with inbox := s.inbox.tail, flip := false, resp := .none }) ∧
  (∀ s : State, s.inbox = [] ∨ (∃ es, s.inbox = .engine :: es) → s.pending = none →
    step s = .next { s with inbox := s.inbox.tail, flip := false, resp := .none })

/-- Log entry 4 (the model's own): an instruction placed by withFetchWord is run by the very next step, on the state it
was placed in but for the event, the pulses, the write response of a CMD write, and the acceptance that makes it
pending. -/
def Obligations.PlacedInstructionRunsNext : Prop :=
  ∀ (s : State) (nbits w : Nat) (i : Instr), decodeTableWord nbits w = some i →
    ∃ (r : Response) (q : Option Pending),
      step (s.withFetchWord nbits w) = exec i { s with flip := false, resp := r, pending := q } ∧
      (r = .none ∨ r = .written) ∧ (q = s.pending ∨ ∃ op, q = some { op := op, raced := [] } ∧ op.toInstr = i)

/-- R64, R236: an access that is not a 32-bit access at an offset that is a multiple of 4 gets an error response and has
no effect on any ICC state. -/
def Obligations.BadAccessGetsABusError : Prop :=
  ∀ (s : State) (a : Access) (es : List Event), s.inbox = .access a :: es →
    a.size ≠ .b4 ∨ a.offset.toNat % 4 ≠ 0 →
    step s = .next { s with inbox := es, flip := false, resp := .busError }

/-- R102, R68, R212 to R216, R218, R219, R194 to R197: a read at every aligned offset returns the register's value and
changes no state. -/
def Obligations.ReadsReturnTheRegisterMap : Prop :=
  ∀ (s : State) (a : Access) (es : List Event), s.inbox = .access a :: es → a.size = .b4 → a.offset.toNat % 4 = 0 →
    a.dir = .read →
    step s = .next { s with inbox := es, flip := false, resp := .data (s.registerValue a.offset.toNat) }

/-- R217: a 32-bit write to a read-only register is accepted and ignored; so says each such operation. -/
def Obligations.ReadOnlyWritesAreIgnored : Prop :=
  (∀ (s : State) (o : BitVec 12) (v : Word) (es : List Event),
    s.inbox = .access { offset := o, size := .b4, dir := .write v } :: es → o.toNat % 4 = 0 →
    o = 0x004#12 ∨ (0x028 ≤ o.toNat ∧ o.toNat ≤ 0x03C) ∨ (0x400 ≤ o.toNat ∧ o.toNat ≤ 0xBFC) →
    step s = .next { s with inbox := es, flip := false, resp := .written }) ∧
  (∀ (s : State) (v : Word) (k : Byte),
    exec (.wrStatus v) s = .next { s with resp := .written } ∧
    exec (.wrGamma v) s = .next { s with resp := .written } ∧
    exec (.wrFrameCount v) s = .next { s with resp := .written } ∧
    exec (.wrHalfSize v) s = .next { s with resp := .written } ∧
    exec (.wrActiveBaseLo v) s = .next { s with resp := .written } ∧
    exec (.wrActiveBaseHi v) s = .next { s with resp := .written } ∧
    exec (.wrNearest v) s = .next { s with resp := .written } ∧
    exec (.wrCtWindow k v) s = .next { s with resp := .written } ∧
    exec (.wrP565Window k v) s = .next { s with resp := .written })

/-- R219: at a reserved offset a 32-bit read returns 0 and a 32-bit write is ignored; neither records an error. -/
def Obligations.ReservedOffsetsReadZero : Prop :=
  (∀ (s : State) (a : Access) (es : List Event), s.inbox = .access a :: es → a.size = .b4 → a.offset.toNat % 4 = 0 →
    (0x040 ≤ a.offset.toNat ∧ a.offset.toNat ≤ 0x3FC) ∨ 0xC00 ≤ a.offset.toNat →
    step s = .next
      { s with
        inbox := es
        flip := false
        resp := match a.dir with
          | .read => .data 0x00000000#32
          | .write _ => .written }) ∧
  (∀ (s : State) (o : BitVec 12) (v : Word),
    exec (.reservedOffset o .read) s = .next { s with resp := .data 0 } ∧
    exec (.reservedOffset o (.write v)) s = .next { s with resp := .written })

/-- R212 to R216, R218, R194 to R197: what each read operation answers; nothing else changes. -/
def Obligations.ReadOperationsAnswer : Prop :=
  ∀ (s : State) (k : Byte),
    exec .rdCmd s = .next { s with resp := .data 0 } ∧
    exec .rdStatus s = .next { s with resp := .data s.statusWord } ∧
    exec .rdWidth s = .next { s with resp := .data (s.width.setWidth 32) } ∧
    exec .rdHeight s = .next { s with resp := .data (s.height.setWidth 32) } ∧
    exec .rdLogBaseLo s = .next { s with resp := .data (s.logBase.extractLsb' 0 32) } ∧
    exec .rdLogBaseHi s = .next { s with resp := .data (s.logBase.extractLsb' 32 32) } ∧
    exec .rdPhysBaseLo s = .next { s with resp := .data (s.physBase.extractLsb' 0 32) } ∧
    exec .rdPhysBaseHi s = .next { s with resp := .data (s.physBase.extractLsb' 32 32) } ∧
    exec .rdPalSrcLo s = .next { s with resp := .data (s.palSrc.extractLsb' 0 32) } ∧
    exec .rdPalSrcHi s = .next { s with resp := .data (s.palSrc.extractLsb' 32 32) } ∧
    exec .rdGamma s = .next { s with resp := .data (s.gamma.setWidth 32) } ∧
    exec .rdFrameCount s = .next { s with resp := .data s.frameCount } ∧
    exec .rdHalfSize s =
      .next { s with resp := .data (if s.initFlag then BitVec.ofNat 32 s.geom.s else 0) } ∧
    exec .rdActiveBaseLo s = .next
      { s with
        resp := .data (if s.initFlag then
          BitVec.ofNat 32 (s.geom.phys.toNat + (if s.active then s.geom.s else 0)) else 0) } ∧
    exec .rdActiveBaseHi s = .next
      { s with
        resp := .data (if s.initFlag then
          BitVec.ofNat 32 ((s.geom.phys.toNat + (if s.active then s.geom.s else 0)) / 2 ^ 32) else 0) } ∧
    exec .rdNearest s = .next { s with resp := .data (s.nearest.setWidth 32) } ∧
    exec (.rdCt k) s = .next { s with resp := .data (s.ct.get k) } ∧
    exec (.rdP565 k) s = .next { s with resp := .data ((s.p565.get k).setWidth 32) }

/-- R25, R212, R231: the bits of STATUS, and the number of each error code. -/
def Obligations.StatusWordFields : Prop :=
  (∀ s : State,
    s.statusWord.getLsbD 0 = s.pending.isSome ∧ s.statusWord.getLsbD 1 = s.active ∧
    s.statusWord.getLsbD 2 = s.initFlag ∧ s.statusWord.getLsbD 3 = s.statDue ∧
    s.statusWord.extractLsb' 4 4 = s.err.code ∧ s.statusWord.extractLsb' 8 24 = 0) ∧
  ErrCode.noError.code = 0 ∧ ErrCode.eopcode.code = 1 ∧ ErrCode.ebusy.code = 2 ∧ ErrCode.estate.code = 3 ∧
  ErrCode.edim.code = 4 ∧ ErrCode.ealign.code = 5 ∧ ErrCode.erange.code = 6 ∧ ErrCode.egamma.code = 7 ∧
  ErrCode.ebus.code = 8

/-! ### Register writes -/

/-- R120 to R123, R180: a configuration register takes the data written, in any state; nothing else changes. -/
def Obligations.ConfigurationWrites : Prop :=
  ∀ (s : State) (v : Word),
    exec (.wrWidth v) s = .next { s with resp := .written, width := v.extractLsb' 0 16 } ∧
    exec (.wrHeight v) s = .next { s with resp := .written, height := v.extractLsb' 0 16 } ∧
    exec (.wrLogBaseLo v) s = .next { s with resp := .written, logBase := s.logBase.extractLsb' 32 32 ++ v } ∧
    exec (.wrLogBaseHi v) s = .next { s with resp := .written, logBase := v ++ s.logBase.extractLsb' 0 32 } ∧
    exec (.wrPhysBaseLo v) s = .next { s with resp := .written, physBase := s.physBase.extractLsb' 32 32 ++ v } ∧
    exec (.wrPhysBaseHi v) s = .next { s with resp := .written, physBase := v ++ s.physBase.extractLsb' 0 32 } ∧
    exec (.wrPalSrcLo v) s = .next { s with resp := .written, palSrc := s.palSrc.extractLsb' 32 32 ++ v } ∧
    exec (.wrPalSrcHi v) s = .next { s with resp := .written, palSrc := v ++ s.palSrc.extractLsb' 0 32 }

/-! ### Issue and errors -/

/-- R95, R96: a word with a reserved opcode or a 1 in a reserved bit is rejected at issue with EOPCODE, in any state,
and has no other effect; so does the operation of a reserved opcode. That the bus answers the rejected CMD write as an
ordinary write is the model's choice (log entry 20). -/
def Obligations.IllegalWordRecordsEopcode : Prop :=
  (∀ (s : State) (w : Word), IllegalWord w →
    exec (.wrCmd w) s = .next { s with resp := .written, err := recorded s.err .eopcode }) ∧
  (∀ (s : State) (w : Word), exec (.reservedOpcode w) s = .next { s with err := recorded s.err .eopcode })

/-- R32, R99, R233: with no command pending, each of the six commands is accepted with its operands sampled. -/
def Obligations.IdleEngineAcceptsCommands : Prop :=
  ∀ (s : State) (l r g b : Byte), s.pending = none →
    exec (.wrCmd 0x1#32) s = .next
      { s with
        resp := .written
        pending := some { op := .init s.width s.height s.logBase s.physBase, raced := [] } } ∧
    exec (.wrCmd 0x2#32) s = .next
      { s with resp := .written, pending := some { op := .shutdown, raced := [] } } ∧
    exec (.wrCmd 0x3#32) s = .next
      { s with resp := .written, pending := some { op := .present, raced := [] } } ∧
    exec (.wrCmd 0x4#32) s = .next
      { s with resp := .written, pending := some { op := .setPalette s.palSrc, raced := [] } } ∧
    exec (.wrCmd (setGammaWord l)) s = .next
      { s with resp := .written, pending := some { op := .setGamma l, raced := [] } } ∧
    exec (.wrCmd (nearestWord r g b)) s = .next
      { s with resp := .written, pending := some { op := .nearest r g b, raced := [] } }

/-- R231, R233, R265: with a command pending, each of the six is rejected with EBUSY and disturbs nothing. That the bus
answers the rejected CMD write as an ordinary write is the model's choice (log entry 20). -/
def Obligations.BusyEngineRejectsCommands : Prop :=
  ∀ (s : State) (w : Word) (l r g b : Byte), s.pending ≠ none →
    w = 0x1#32 ∨ w = 0x2#32 ∨ w = 0x3#32 ∨ w = 0x4#32 ∨ w = setGammaWord l ∨ w = nearestWord r g b →
    exec (.wrCmd w) s = .next { s with resp := .written, err := recorded s.err .ebusy }

/-- R97, R210, R211: NOP and ACK act in the step of their CMD write, in any state, busy or not. -/
def Obligations.NopAndAckActAtIssue : Prop :=
  ∀ (s : State) (clrStat clrErr : Bool),
    exec .nop s = .next s ∧
    exec (.wrCmd 0x0#32) s = .next { s with resp := .written } ∧
    exec (.ack clrStat clrErr) s = .next
      { s with
        statDue := if clrStat then false else s.statDue
        err := if clrErr then .noError else s.err } ∧
    exec (.wrCmd (ackWord clrStat clrErr)) s = .next
      { s with
        resp := .written
        statDue := if clrStat then false else s.statDue
        err := if clrErr then .noError else s.err }

/-- R32, R233: a CMD write never disturbs the pending command. -/
def Obligations.CmdWriteKeepsThePendingCommand : Prop :=
  ∀ (s t : State) (p : Pending) (w : Word), s.pending = some p → exec (.wrCmd w) s = .next t → t.pending = some p

/-- R234: the first error stays: only an ACK with CLR_ERR and reset clear STATUS.ERR. -/
def Obligations.FirstErrorStays : Prop :=
  ∀ s t : State, step s = .next t → s.err ≠ .noError →
    t.err = s.err ∨ s.nextEvent = .reset ∨ ∃ clrStat, s.nextEvent = cmdWrite (ackWord clrStat true)

/-- R234: ERR ≠ 0 does not block anything: whatever STATUS.ERR holds, a step does the same to everything else, but for
the answer of a read of STATUS. That the free values of the two steps are the same is the model's choice: a draw depends
on the counter and an index alone (log entries 7 and 10). -/
def Obligations.ErrorsBlockNothing : Prop :=
  ∀ (s t : State) (e : ErrCode), step s = .next t →
    ∃ t', step { s with err := e } = .next t' ∧ t' = { t with err := t'.err, resp := t'.resp } ∧
      (t'.resp = t.resp ∨
        s.nextEvent = .access { offset := 0x004#12, size := .b4, dir := .read })

/-- R230, R238: a failed command leaves every ICC register and table as it was, except STATUS.ERR and BUSY; only a
PRESENT that ends with EBUS can leave memory changed. -/
def Obligations.FailedCommandsAreRegisterPrecise : Prop :=
  ∀ (s t : State) (p : Pending), s.pending = some p → s.err = .noError → exec p.op.toInstr s = .next t →
    t.err ≠ .noError →
    t = { s with
      pending := none
      err := t.err
      mem := t.mem
      stageCt := t.stageCt
      stageP565 := t.stageP565
      fresh := t.fresh } ∧
    (p.op ≠ .present ∨ t.err ≠ .ebus → t.mem = s.mem)

/-- R43 and the R25 table: which operation writes which status flag; reset apart. With R231, R233 and R234 for ERR: it
is written while it is 0, by a completion with a code of that command or by a CMD write with EOPCODE, or EBUSY while a
command is pending; and an ACK with CLR_ERR clears it. -/
def Obligations.StatusFlagWriters : Prop :=
  ∀ s t : State, step s = .next t → s.nextEvent ≠ .reset →
    (t.initFlag ≠ s.initFlag → (∃ w h lb pb, s.Completing (.init w h lb pb)) ∨ s.Completing .shutdown) ∧
    (t.active ≠ s.active → (∃ w h lb pb, s.Completing (.init w h lb pb)) ∨ s.Completing .present) ∧
    (t.statDue ≠ s.statDue →
      (∃ w h lb pb, s.Completing (.init w h lb pb)) ∨ (s.Completing .present ∧ t.statDue = true) ∨
        ∃ clrErr, s.nextEvent = cmdWrite (ackWord true clrErr)) ∧
    (t.busy ≠ s.busy → (∃ op, s.Completing op ∧ t.busy = false) ∨ (s.Writing 0x000#12 ∧ t.busy = true)) ∧
    (t.err ≠ s.err →
      (s.err = .noError ∧ t.pending = none ∧ ∃ op, s.Completing op ∧ t.err ∈ op.raises) ∨
      (s.err = .noError ∧ s.Writing 0x000#12 ∧ (t.err = .eopcode ∨ (t.err = .ebusy ∧ s.pending ≠ none))) ∨
      (t.err = .noError ∧ ∃ clrStat, s.nextEvent = cmdWrite (ackWord clrStat true)))

/-- R31, R33, R36 to R39, R26 to R30: each register and table has its one writer; reset apart. -/
def Obligations.RegisterWriters : Prop :=
  ∀ s t : State, step s = .next t → s.nextEvent ≠ .reset →
    (t.gamma ≠ s.gamma → ∃ l, s.Completing (.setGamma l)) ∧
    (t.frameCount ≠ s.frameCount → (∃ w h lb pb, s.Completing (.init w h lb pb)) ∨ s.Completing .present) ∧
    (t.nearest ≠ s.nearest → ∃ r g b, s.Completing (.nearest r g b)) ∧
    (t.geom ≠ s.geom → ∃ w h lb pb, s.Completing (.init w h lb pb)) ∧
    (t.ct ≠ s.ct ∨ t.p565 ≠ s.p565 → ∃ ps, s.Completing (.setPalette ps)) ∧
    (t.width ≠ s.width → s.Writing 0x008#12) ∧
    (t.height ≠ s.height → s.Writing 0x00C#12) ∧
    (t.logBase ≠ s.logBase → s.Writing 0x010#12 ∨ s.Writing 0x014#12) ∧
    (t.physBase ≠ s.physBase → s.Writing 0x018#12 ∨ s.Writing 0x01C#12) ∧
    (t.palSrc ≠ s.palSrc → s.Writing 0x020#12 ∨ s.Writing 0x024#12)

/-! ### INIT and SHUTDOWN -/

/-- R125, R130: a pending INIT whose sampled geometry is legal latches it and starts with half 0 active, no frame
counted and no trigger; memory, tables, GAMMA and NEAREST keep their values. -/
def Obligations.InitLatchesTheGeometry : Prop :=
  ∀ (s : State) (w h : Half) (lb pb : DWord) (raced : List Nat),
    s.pending = some { op := .init w h lb pb, raced := raced } → s.initFlag = false →
    w ≠ 0 → h ≠ 0 → (w.toNat * h.toNat) % 16 = 0 → 4 * (w.toNat * h.toNat) ≤ 2 ^ 31 → pb.toNat % 8 = 0 →
    lb.toNat + w.toNat * h.toNat ≤ 2 ^ 64 → pb.toNat + 2 * nextPow2 (4 * (w.toNat * h.toNat)) ≤ 2 ^ 64 →
    (∀ a, ¬ ((lb.toNat ≤ a ∧ a < lb.toNat + w.toNat * h.toNat) ∧
      (pb.toNat ≤ a ∧ a < pb.toNat + 2 * nextPow2 (4 * (w.toNat * h.toNat))))) →
    ∃ t, exec .init s = .next t ∧
      t = { s with
        pending := none
        geom := { w := w, h := h, n := w.toNat * h.toNat, log := lb, phys := pb,
                  s := nextPow2 (4 * (w.toNat * h.toNat)) }
        active := false
        statDue := false
        frameCount := 0
        initFlag := true } ∧
      t.outValid = true ∧ t.outActive = false ∧ t.outActiveBase = pb ∧
      t.outHalfSize.toNat = nextPow2 (4 * (w.toNat * h.toNat))

/-- R126: INIT while a geometry is latched completes with ESTATE and changes nothing else. -/
def Obligations.InitWhileLatchedIsEstate : Prop :=
  ∀ (s : State) (w h : Half) (lb pb : DWord) (raced : List Nat),
    s.pending = some { op := .init w h lb pb, raced := raced } → s.initFlag = true →
    exec .init s = .next { s with pending := none, err := recorded s.err .estate }

/-- R127: INIT completes with EDIM where a dimension is 0, N is no multiple of 16 or 4N exceeds 2^31, whatever the
addresses; and otherwise N ≥ 16, 4N ≥ 64 and S is a power of two from 64 to 2^31, a multiple of 8. -/
def Obligations.InitSizeConstraint : Prop :=
  (∀ (s : State) (w h : Half) (lb pb : DWord) (raced : List Nat),
    s.pending = some { op := .init w h lb pb, raced := raced } → s.initFlag = false →
    w = 0 ∨ h = 0 ∨ (w.toNat * h.toNat) % 16 ≠ 0 ∨ 2 ^ 31 < 4 * (w.toNat * h.toNat) →
    exec .init s = .next { s with pending := none, err := recorded s.err .edim }) ∧
  (∀ w h : Half, w ≠ 0 → h ≠ 0 → (w.toNat * h.toNat) % 16 = 0 → 4 * (w.toNat * h.toNat) ≤ 2 ^ 31 →
    16 ≤ w.toNat * h.toNat ∧ 64 ≤ 4 * (w.toNat * h.toNat) ∧
      64 ≤ nextPow2 (4 * (w.toNat * h.toNat)) ∧ nextPow2 (4 * (w.toNat * h.toNat)) ≤ 2 ^ 31 ∧
      (∃ k, nextPow2 (4 * (w.toNat * h.toNat)) = 2 ^ k) ∧ nextPow2 (4 * (w.toNat * h.toNat)) % 8 = 0)

/-- R128 in the order of R235: with a legal size, INIT completes with EALIGN where PHYS_BASE is no multiple of 8. -/
def Obligations.InitAlignmentConstraint : Prop :=
  ∀ (s : State) (w h : Half) (lb pb : DWord) (raced : List Nat),
    s.pending = some { op := .init w h lb pb, raced := raced } → s.initFlag = false →
    w ≠ 0 → h ≠ 0 → (w.toNat * h.toNat) % 16 = 0 → 4 * (w.toNat * h.toNat) ≤ 2 ^ 31 → pb.toNat % 8 ≠ 0 →
    exec .init s = .next { s with pending := none, err := recorded s.err .ealign }

/-- R129 in the order of R235: with a legal size and alignment, INIT completes with ERANGE where a surface does not fit
below 2^64 or the two share a byte. -/
def Obligations.InitRangeConstraint : Prop :=
  ∀ (s : State) (w h : Half) (lb pb : DWord) (raced : List Nat),
    s.pending = some { op := .init w h lb pb, raced := raced } → s.initFlag = false →
    w ≠ 0 → h ≠ 0 → (w.toNat * h.toNat) % 16 = 0 → 4 * (w.toNat * h.toNat) ≤ 2 ^ 31 → pb.toNat % 8 = 0 →
    2 ^ 64 < lb.toNat + w.toNat * h.toNat ∨ 2 ^ 64 < pb.toNat + 2 * nextPow2 (4 * (w.toNat * h.toNat)) ∨
      (∃ a, (lb.toNat ≤ a ∧ a < lb.toNat + w.toNat * h.toNat) ∧
        (pb.toNat ≤ a ∧ a < pb.toNat + 2 * nextPow2 (4 * (w.toNat * h.toNat)))) →
    exec .init s = .next { s with pending := none, err := recorded s.err .erange }

/-- R131: SHUTDOWN releases a latched geometry and changes nothing else, after which the geometry registers and outputs
read 0; without one it completes with ESTATE. -/
def Obligations.ShutdownReleasesOrIsEstate : Prop :=
  (∀ s : State, s.initFlag = true →
    ∃ t, exec .shutdown s = .next t ∧ t = { s with pending := none, initFlag := false } ∧
      t.halfSize = 0 ∧ t.activeBase = 0 ∧ t.outActiveBase = 0 ∧ t.outHalfSize = 0 ∧ t.outValid = false) ∧
  (∀ s : State, s.initFlag = false →
    exec .shutdown s = .next { s with pending := none, err := recorded s.err .estate })

/-! ### PRESENT -/

/-- R153, R155, R157, R158, R160, R161: a PRESENT whose accesses all get data and whose regions no other agent wrote
leaves every texel the little-endian image of the color table entry of its pixel, writes no other byte, flips, counts,
and sets the trigger at multiples of 512. -/
def Obligations.PresentConvertsTheSurface : Prop :=
  ∀ s : State, s.initFlag = true → s.geom.Legal → s.mem.wf → s.Clear s.sourceSpan → s.Clear s.targetSpan →
    s.Unraced s.sourceSpan → s.Unraced s.inactiveSpan →
    ∃ m, exec .present s = .next (s.afterFrame m) ∧
      (∀ j c, j < s.geom.n → c < 4 →
        m.read (s.geom.phys.toNat + (if s.active then 0 else s.geom.s) + 4 * j + c) =
          (s.ct.get (s.mem.read (s.geom.log.toNat + j))).extractLsb' (8 * c) 8) ∧
      (∀ a, a < s.geom.phys.toNat + (if s.active then 0 else s.geom.s) ∨
        s.geom.phys.toNat + (if s.active then 0 else s.geom.s) + 4 * s.geom.n ≤ a → m.read a = s.mem.read a)

/-- R154, R63: the 64-bit word at D + 8k holds texel 2k in its low lane and texel 2k + 1 in its high lane, and its two
32-bit words are those texels. -/
def Obligations.PresentPacksPairs : Prop :=
  ∀ s t : State, s.initFlag = true → s.geom.Legal → s.mem.wf → s.Clear s.sourceSpan → s.Clear s.targetSpan →
    s.Unraced s.sourceSpan → s.Unraced s.targetSpan → exec .present s = .next t →
    ∀ k, 2 * k < s.geom.n →
      t.mem.read64 (s.inactiveBase + 8 * k) =
        s.ct.get (s.mem.read (s.geom.log.toNat + 2 * k + 1)) ++ s.ct.get (s.mem.read (s.geom.log.toNat + 2 * k)) ∧
      t.mem.read32 (s.inactiveBase + 8 * k) = s.ct.get (s.mem.read (s.geom.log.toNat + 2 * k)) ∧
      t.mem.read32 (s.inactiveBase + 8 * k + 4) = s.ct.get (s.mem.read (s.geom.log.toNat + 2 * k + 1))

/-- R76, R77: where another agent wrote a pixel of a pair during the PRESENT, both texels of the pair are free values;
where it wrote a byte of the inactive half, that byte is a free value; every other byte is as without the race, and the
PRESENT completes as ever. -/
def Obligations.PresentUnderRaces : Prop :=
  ∀ s : State, s.initFlag = true → s.geom.Legal → s.mem.wf → s.Clear s.sourceSpan → s.Clear s.targetSpan →
    ∃ m, exec .present s = .next (s.afterFrame m) ∧
      (∀ k c, 2 * k < s.geom.n → c < 8 → s.inactiveBase + 8 * k + c ∉ s.raced →
        (s.geom.log.toNat + 2 * k ∈ s.raced ∨ s.geom.log.toNat + 2 * k + 1 ∈ s.raced →
          m.read (s.inactiveBase + 8 * k + c) =
            (Config.freeTexel s.fresh (2 * k + c / 4)).extractLsb' (8 * (c % 4)) 8) ∧
        (s.geom.log.toNat + 2 * k ∉ s.raced → s.geom.log.toNat + 2 * k + 1 ∉ s.raced →
          m.read (s.inactiveBase + 8 * k + c) =
            (s.ct.get (s.mem.read (s.geom.log.toNat + 2 * k + c / 4))).extractLsb' (8 * (c % 4)) 8)) ∧
      (∀ a ∈ s.raced, s.inactiveSpan.contains a = true →
        m.read a = Config.freeByte s.fresh (a - s.inactiveBase)) ∧
      (∀ a, s.targetSpan.contains a = false → a ∉ s.raced ∨ s.inactiveSpan.contains a = false →
        m.read a = s.mem.read a)

/-- R162, R77: a PRESENT one of whose accesses gets an error response completes with EBUS: nothing changes but ERR, BUSY
and the bytes of the target, which are free values, with those that other agents wrote in the same half meanwhile. -/
def Obligations.PresentBusErrorIsEbus : Prop :=
  ∀ s : State, s.initFlag = true → s.geom.Legal → s.mem.wf →
    s.ClearOf .device s.sourceSpan → s.ClearOf .device s.targetSpan →
    s.ClearOf .silent s.sourceSpan → s.ClearOf .silent s.targetSpan →
    s.Hits .error s.sourceSpan ∨ s.Hits .error s.targetSpan →
    ∃ m, exec .present s = .next
        { s with pending := none, err := recorded s.err .ebus, mem := m, fresh := s.fresh + 1 } ∧
      (∀ a, s.targetSpan.contains a = true ∨ (a ∈ s.raced ∧ s.inactiveSpan.contains a = true) →
        m.read a = Config.freeByte s.fresh (a - s.inactiveBase)) ∧
      (∀ a, s.targetSpan.contains a = false → a ∉ s.raced ∨ s.inactiveSpan.contains a = false →
        m.read a = s.mem.read a) ∧
      (∀ a, s.geom.halfBase s.active ≤ a → a < s.geom.halfBase s.active + s.geom.s → m.read a = s.mem.read a)

/-- R151: PRESENT with no latched geometry completes with ESTATE, whatever the bus would answer; no memory changes. -/
def Obligations.PresentWithoutGeometryIsEstate : Prop :=
  ∀ s : State, s.initFlag = false →
    exec .present s = .next { s with pending := none, err := recorded s.err .estate }

/-- R246 (log entry 9): where an access of PRESENT or SET_PALETTE never gets a response, the completion step does not complete it:
the state, and with it BUSY, stays. -/
def Obligations.UnansweredAccessLeavesTheCommandPending : Prop :=
  (∀ s : State, s.initFlag = true → s.ClearOf .device s.sourceSpan → s.ClearOf .device s.targetSpan →
    s.ClearOf .error s.sourceSpan → s.ClearOf .error s.targetSpan →
    s.Hits .silent s.sourceSpan ∨ s.Hits .silent s.targetSpan → exec .present s = .next s) ∧
  (∀ s : State, s.paletteSource + 768 ≤ 2 ^ 64 → s.ClearOf .device s.paletteSpan → s.ClearOf .error s.paletteSpan →
    s.Hits .silent s.paletteSpan → exec .setPalette s = .next s)

/-- R68 (log entry 11, the model's own choice): a command whose region lies over device memory stops, by name; from
every state a step answers a next state unless it is the completion of such a command. -/
def Obligations.OnlyDeviceMemoryStops : Prop :=
  (∀ s : State, s.initFlag = true → s.Hits .device s.sourceSpan ∨ s.Hits .device s.targetSpan →
    exec .present s = .fault .deviceMemory) ∧
  (∀ s : State, s.paletteSource + 768 ≤ 2 ^ 64 → s.Hits .device s.paletteSpan →
    exec .setPalette s = .fault .deviceMemory) ∧
  (∀ s : State, (∃ t, step s = .next t) ∨
    (step s = .fault .deviceMemory ∧ s.Completing .present ∧ s.initFlag = true ∧
      (s.Hits .device s.sourceSpan ∨ s.Hits .device s.targetSpan)) ∨
    (step s = .fault .deviceMemory ∧ ∃ ps : DWord, s.Completing (.setPalette ps) ∧ ps.toNat + 768 ≤ 2 ^ 64 ∧
      s.Hits .device { lo := ps.toNat, len := 768 }))

/-- R68 (log entry 11): a run with no device memory on the bus map, now or later, never stops. -/
def Obligations.RunsWithoutDeviceMemoryNeverStop : Prop :=
  ∀ (k : Nat) (s : State), s.NoDevice → ∃ t, Host.Core.run core k s = .next t

/-- R157, R158, R161: `k` frames in a row, from any counter value and either half, where no bus region touches the logical
surface or the texels of either half: the active half alternates, the counter rises by k modulo 2^32, and the trigger is
set exactly where it was or some count was a multiple of 512. -/
def Obligations.FramesAlternateAndCount : Prop :=
  ∀ (k : Nat) (s : State) (es : List Event), s.initFlag = true → s.pending = none → s.Clear s.sourceSpan →
    (∀ b, s.Clear { lo := s.geom.halfBase b, len := 4 * s.geom.n }) → s.inbox = frames k ++ es →
    ∃ t, Host.Core.run core (2 * k) s = .next t ∧ t.inbox = es ∧ t.pending = none ∧ t.geom = s.geom ∧
      t.active = (s.active ^^ decide (k % 2 = 1)) ∧ t.frameCount = s.frameCount + BitVec.ofNat 32 k ∧
      (t.statDue = true ↔
        s.statDue = true ∨ ∃ j, 1 ≤ j ∧ j ≤ k ∧ (s.frameCount.toNat + j) % 512 = 0)

/-- R67: the result of a PRESENT depends on memory only through the bytes of the logical surface: with the same bytes
there, it does the same to every byte of the target and to everything else. Where its accesses get data and no other
agent wrote its regions, R153 gives those bytes; where the rules leave a byte or a choice open (R76, R77, R162, R246), that
the two runs agree is the model's choice and no rule: a draw depends on the counter and an index alone (log entries 7
and 10). -/
def Obligations.PresentReadsOnlyTheSurface : Prop :=
  ∀ (s t : State) (p : Pending) (m : Memory), s.initFlag = true → s.geom.Legal → s.mem.wf → m.wf →
    (∀ a, s.sourceSpan.contains a = true → m.read a = s.mem.read a) → s.pending = some p →
    exec .present s = .next t → t.pending = none →
    ∃ m', exec .present { s with mem := m } = .next { t with mem := m' } ∧
      ∀ a, s.targetSpan.contains a = true → m'.read a = t.mem.read a

/-- R42, R67, R156: from a state that meets the invariant, the only bytes of memory that a step of the host port or the
engine changes are target bytes of the completing PRESENT, and the bytes of the same half that other agents wrote while
it was pending (R77); none of them is in the active half or the logical surface. -/
def Obligations.OnlyTheInactiveHalfIsWritten : Prop :=
  ∀ (s t : State) (a : Nat), s.Inv → s.nextEvent = .engine ∨ (∃ x, s.nextEvent = .access x) → step s = .next t →
    t.mem.read a ≠ s.mem.read a →
    s.Completing .present ∧ s.initFlag = true ∧
      (s.targetSpan.contains a = true ∨ (a ∈ s.raced ∧ s.inactiveSpan.contains a = true)) ∧
      ¬ (s.geom.halfBase s.active ≤ a ∧ a < s.geom.halfBase s.active + s.geom.s) ∧
      s.sourceSpan.contains a = false

/-! ### Palette commands -/

/-- R182, R183, R184, R185: a SET_PALETTE whose reads all get data and whose buffer no other agent wrote replaces every
entry of both tables at once, by the gamma-corrected triples; at gamma level 0, by the triples themselves. -/
def Obligations.SetPaletteRebuildsTheTables : Prop :=
  ∀ (s : State) (ps : DWord) (raced : List Nat), s.pending = some { op := .setPalette ps, raced := raced } →
    ps.toNat + 768 ≤ 2 ^ 64 → s.Clear { lo := ps.toNat, len := 768 } → s.Unraced { lo := ps.toNat, len := 768 } →
    ∃ (c : Table 32) (p : Table 16),
      exec .setPalette s = .next
        { s with pending := none, ct := c, p565 := p, stageCt := c, stageP565 := p, fresh := s.fresh + 1 } ∧
      (∀ i : Byte,
        c.get i = shiftedColor (Config.gammaLut s.gamma (s.mem.read (ps.toNat + 3 * i.toNat)))
          (Config.gammaLut s.gamma (s.mem.read (ps.toNat + 3 * i.toNat + 1)))
          (Config.gammaLut s.gamma (s.mem.read (ps.toNat + 3 * i.toNat + 2))) ∧
        p.get i = shifted565 (Config.gammaLut s.gamma (s.mem.read (ps.toNat + 3 * i.toNat)))
          (Config.gammaLut s.gamma (s.mem.read (ps.toNat + 3 * i.toNat + 1)))
          (Config.gammaLut s.gamma (s.mem.read (ps.toNat + 3 * i.toNat + 2)))) ∧
      (s.gamma = 0 → ∀ i : Byte,
        c.get i = shiftedColor (s.mem.read (ps.toNat + 3 * i.toNat)) (s.mem.read (ps.toNat + 3 * i.toNat + 1))
          (s.mem.read (ps.toNat + 3 * i.toNat + 2)))

/-- R186, R185: SET_PALETTE completes with ERANGE where its 768 bytes do not fit, before any read, and with EBUS where a
read gets an error response; either way both tables keep their contents. -/
def Obligations.SetPaletteErrorsKeepTheTables : Prop :=
  (∀ (s : State) (ps : DWord) (raced : List Nat), s.pending = some { op := .setPalette ps, raced := raced } →
    2 ^ 64 < ps.toNat + 768 →
    exec .setPalette s = .next { s with pending := none, err := recorded s.err .erange }) ∧
  (∀ (s : State) (ps : DWord) (raced : List Nat), s.pending = some { op := .setPalette ps, raced := raced } →
    ps.toNat + 768 ≤ 2 ^ 64 → s.ClearOf .device { lo := ps.toNat, len := 768 } →
    s.ClearOf .silent { lo := ps.toNat, len := 768 } → s.Hits .error { lo := ps.toNat, len := 768 } →
    ∃ (c : Table 32) (p : Table 16),
      exec .setPalette s = .next
        { s with
          pending := none
          err := recorded s.err .ebus
          stageCt := c
          stageP565 := p
          fresh := s.fresh + 1 })

/-- R76: a SET_PALETTE during which another agent wrote bytes of its buffer completes as ever; an entry whose triple has
such a byte is a free value in both tables, with CT bits [31:24] still 0, and every other entry of both tables is as
without the race. -/
def Obligations.SetPaletteUnderRaces : Prop :=
  ∀ (s : State) (ps : DWord) (raced : List Nat), s.pending = some { op := .setPalette ps, raced := raced } →
    ps.toNat + 768 ≤ 2 ^ 64 → s.Clear { lo := ps.toNat, len := 768 } →
    ∃ (c : Table 32) (p : Table 16),
      exec .setPalette s = .next
        { s with pending := none, ct := c, p565 := p, stageCt := c, stageP565 := p, fresh := s.fresh + 1 } ∧
      ∀ i : Byte,
        (c.get i).extractLsb' 24 8 = 0 ∧
        ((∃ b, b < 3 ∧ ps.toNat + 3 * i.toNat + b ∈ raced) →
          (c.get i).extractLsb' 0 24 = Config.freeColor s.fresh i.toNat ∧
          p.get i = Config.freeEntry565 s.fresh i.toNat) ∧
        ((∀ b, b < 3 → ps.toNat + 3 * i.toNat + b ∉ raced) →
          c.get i = shiftedColor (Config.gammaLut s.gamma (s.mem.read (ps.toNat + 3 * i.toNat)))
            (Config.gammaLut s.gamma (s.mem.read (ps.toNat + 3 * i.toNat + 1)))
            (Config.gammaLut s.gamma (s.mem.read (ps.toNat + 3 * i.toNat + 2))) ∧
          p.get i = shifted565 (Config.gammaLut s.gamma (s.mem.read (ps.toNat + 3 * i.toNat)))
            (Config.gammaLut s.gamma (s.mem.read (ps.toNat + 3 * i.toNat + 1)))
            (Config.gammaLut s.gamma (s.mem.read (ps.toNat + 3 * i.toNat + 2))))

/-- R187, R188: SET_GAMMA sets the level where it exists and records EGAMMA where it does not; level 0 always exists;
nothing else changes, neither table. -/
def Obligations.SetGammaSetsTheLevelOnly : Prop :=
  ∀ (s : State) (level : Byte),
    exec (.setGamma level) s = .next
      { s with
        pending := none
        gamma := if level.toNat < Config.numGammaLevels then level else s.gamma
        err := if level.toNat < Config.numGammaLevels then s.err else recorded s.err .egamma } ∧
    exec (.setGamma 0) s = .next { s with pending := none, gamma := 0 }

/-- R190: decode565 on every entry: the fields scaled by 8, 4 and 8, so red and blue range over 0..248 and green over
0..252. -/
def Obligations.Decode565Channels : Prop :=
  ∀ p : Half,
    red565 p = (p >>> 11).setWidth 8 <<< 3 ∧ green565 p = ((p >>> 5) &&& 0x3F#16).setWidth 8 <<< 2 ∧
    blue565 p = (p &&& 0x1F#16).setWidth 8 <<< 3 ∧
    (red565 p).toNat ≤ 248 ∧ (green565 p).toNat ≤ 252 ∧ (blue565 p).toNat ≤ 248

/-- R191: the distance the search compares is the exact squared Euclidean distance on integers: each difference lies in
−252..255, each square in 0..65025 and the distance in 0..195075, below 2^18 and below the initial best distance, so entry
0 is always a candidate. -/
def Obligations.DistanceIsExact : Prop :=
  ∀ (r g b : Byte) (p : Half),
    (colorDistance r g b p : Int) = squaredDistance r g b p ∧
      (∀ d : Int,
        d = (r.toNat : Int) - (decoded565 p).1 ∨ d = (g.toNat : Int) - (decoded565 p).2.1 ∨
          d = (b.toNat : Int) - (decoded565 p).2.2 →
        -252 ≤ d ∧ d ≤ 255 ∧ 0 ≤ d ^ 2 ∧ d ^ 2 ≤ 65025) ∧
      colorDistance r g b p ≤ 195075 ∧ colorDistance r g b p < 2 ^ 18 ∧ colorDistance r g b p < 2 ^ 32 - 1

/-- R192: NEAREST leaves the least index whose distance is the minimum over all entries, in any state; a query that is
the decoded color of entry e leaves e or its lowest-indexed exact duplicate. Nothing else changes. -/
def Obligations.NearestIsTheLeastIndexOfTheMinimum : Prop :=
  ∀ (s : State) (r g b : Byte),
    ∃ k : Byte, exec (.nearest r g b) s = .next { s with pending := none, nearest := k } ∧
      (∀ i, squaredDistance r g b (s.p565.get k) ≤ squaredDistance r g b (s.p565.get i)) ∧
      (∀ i, i.toNat < k.toNat →
        squaredDistance r g b (s.p565.get k) < squaredDistance r g b (s.p565.get i)) ∧
      (∀ e, decoded565 (s.p565.get e) = ((r.toNat : Int), (g.toNat : Int), (b.toNat : Int)) →
        decoded565 (s.p565.get k) = decoded565 (s.p565.get e) ∧ k.toNat ≤ e.toNat)

/-- R193: with every shadow entry 0x0000, NEAREST returns 0 for every query. -/
def Obligations.NearestBeforeAnyPaletteIsZero : Prop :=
  ∀ (s : State) (r g b : Byte), (∀ i, s.p565.get i = 0x0000#16) →
    exec (.nearest r g b) s = .next { s with pending := none, nearest := 0 }

/-! ### The whole machine -/

/-- R32, R120: a pending command works on the operands sampled at its acceptance: whatever the host writes into the
configuration registers meanwhile changes nothing of its effect. That the free values of the two runs are the same is the
model's choice: a draw depends on the counter and an index alone (log entries 7 and 10). -/
def Obligations.SampledOperandsAreKept : Prop :=
  ∀ (s t : State) (p : Pending) (w h : Half) (lb pb ps : DWord), s.pending = some p →
    exec p.op.toInstr s = .next t →
    exec p.op.toInstr { s with width := w, height := h, logBase := lb, physBase := pb, palSrc := ps } =
      .next { t with width := w, height := h, logBase := lb, physBase := pb, palSrc := ps }

/-- R41: the outputs are the fields of STATUS and the values of ACTIVE_BASE and HALF_SIZE; they change only in completion
steps of commands and at reset, and `flip` is asserted exactly by the completion of a PRESENT that toggles ACTIVE; after
reset they are 0. -/
def Obligations.OutputsChangeAtCompletions : Prop :=
  (∀ s : State, s.outValid = s.statusWord.getLsbD 2 ∧ s.outActive = s.statusWord.getLsbD 1 ∧
    s.outActiveBase = s.activeBase ∧ s.outHalfSize = s.halfSize) ∧
  (∀ s t : State, step s = .next t →
    (t.outValid ≠ s.outValid ∨ t.outActive ≠ s.outActive ∨ t.outActiveBase ≠ s.outActiveBase ∨
      t.outHalfSize ≠ s.outHalfSize ∨ t.outFlip = true →
      s.nextEvent = .reset ∨ ((∃ op, s.Completing op) ∧ t.pending = none)) ∧
    (t.outFlip = true ↔ s.Completing .present ∧ t.active = !s.active)) ∧
  (∀ s t : State, s.nextEvent = .reset → step s = .next t →
    t.outValid = false ∧ t.outActive = false ∧ t.outActiveBase = 0 ∧ t.outHalfSize = 0 ∧ t.outFlip = false)

/-- R76, R77 (log entry 12): another agent's write is performed at memory and noted against the pending command; another
agent's read returns the byte at memory, or a free value in the inactive half while a PRESENT is pending; neither changes
anything else. That this holds whatever the bus map has at the address is the model's choice (log entry 21). -/
def Obligations.OtherAgentsReadAndWrite : Prop :=
  (∀ (s : State) (es : List Event) (a : DWord) (v : Byte), s.mem.wf → s.inbox = .agentWrite a v :: es →
    ∃ m q, step s = .next { s with inbox := es, flip := false, resp := .none, mem := m, pending := q } ∧
      (∀ b, m.read b = if b = a.toNat then v else s.mem.read b) ∧
      (∀ p, s.pending = some p → q = some { op := p.op, raced := a.toNat :: p.raced }) ∧
      (s.pending = none → q = none)) ∧
  (∀ (s : State) (es : List Event) (a : DWord), s.inbox = .agentRead a :: es →
    (s.presenting = false ∨ s.inactiveSpan.contains a.toNat = false →
      step s = .next { s with inbox := es, flip := false, resp := .memByte (s.mem.read a.toNat) }) ∧
    (s.presenting = true → s.inactiveSpan.contains a.toNat = true →
      step s = .next
        { s with
          inbox := es
          flip := false
          resp := .memByte (Config.freeByte s.fresh 0)
          fresh := s.fresh + 1 }))

/-- R246 (log entry 9): where the memory port always answers, a run takes every waiting event and ends with no command
pending; and a pending command reaches its completion step, which completes it, unless a reset that waits aborts it
(R261). -/
def Obligations.EveryAcceptedCommandCompletes : Prop :=
  ∀ s : State, s.Answers →
    (∃ t, Host.Core.run core (s.inbox.length + 1) s = .next t ∧ t.inbox = [] ∧ t.pending = none) ∧
    (∀ p, s.pending = some p → .reset ∉ s.inbox →
      ∃ (j : Nat) (u v : State), j ≤ s.inbox.length ∧ Host.Core.run core j s = .next u ∧ u.Completing p.op ∧
        step u = .next v ∧ v.pending = none)

/-- Two memories in canonical form (log entry 1) that read alike at every address are equal. -/
def Obligations.CanonicalMemoriesThatReadAlikeAreEqual : Prop :=
  ∀ m m' : Memory, m.wf → m'.wf → (∀ a, m.read a = m'.read a) → m = m'

/-- R31, R37, R38, R127 to R129: every step keeps the invariant. -/
def Obligations.StepKeepsTheInvariant : Prop :=
  ∀ s t : State, s.Inv → step s = .next t → t.Inv

/-- The machine right after reset meets the invariant. -/
def Obligations.ResetMeetsTheInvariant : Prop := State.reset.Inv
end

