-- ==== Sys2Proof/Laws/Decode.lean ====
section
/-! SUPPORT. Laws of the decoder: each offset's register, and the fields of a word put together from its bytes. -/

namespace Sys2Proof

/-! ### The register map (R23) -/

@[simp] theorem slotOf_at_cmd : slotOf 0x000#12 = .cmd := by decide
@[simp] theorem slotOf_at_status : slotOf 0x004#12 = .status := by decide
@[simp] theorem slotOf_at_width : slotOf 0x008#12 = .width := by decide
@[simp] theorem slotOf_at_height : slotOf 0x00C#12 = .height := by decide
@[simp] theorem slotOf_at_logBaseLo : slotOf 0x010#12 = .logBaseLo := by decide
@[simp] theorem slotOf_at_logBaseHi : slotOf 0x014#12 = .logBaseHi := by decide
@[simp] theorem slotOf_at_physBaseLo : slotOf 0x018#12 = .physBaseLo := by decide
@[simp] theorem slotOf_at_physBaseHi : slotOf 0x01C#12 = .physBaseHi := by decide
@[simp] theorem slotOf_at_palSrcLo : slotOf 0x020#12 = .palSrcLo := by decide
@[simp] theorem slotOf_at_palSrcHi : slotOf 0x024#12 = .palSrcHi := by decide
@[simp] theorem slotOf_at_gamma : slotOf 0x028#12 = .gamma := by decide
@[simp] theorem slotOf_at_frameCount : slotOf 0x02C#12 = .frameCount := by decide
@[simp] theorem slotOf_at_halfSize : slotOf 0x030#12 = .halfSize := by decide
@[simp] theorem slotOf_at_activeBaseLo : slotOf 0x034#12 = .activeBaseLo := by decide
@[simp] theorem slotOf_at_activeBaseHi : slotOf 0x038#12 = .activeBaseHi := by decide
@[simp] theorem slotOf_at_nearest : slotOf 0x03C#12 = .nearest := by decide

/-- A 32-bit read at an aligned offset is the read operation there (R102). -/
theorem decode_read {o : BitVec 12} (h : isAligned o = true) : decode (readAccess o) = .ok (decodeRead o) := by
  simp [readAccess, decode, decodeAccess, h]

/-- A 32-bit write at an aligned offset is the write operation there (R102). -/
theorem decode_write {o : BitVec 12} (h : isAligned o = true) (v : Word) :
    decode (writeAccess o v) = .ok (decodeWrite o v) := by
  simp [writeAccess, decode, decodeAccess, h]

/-- Every offset of the CT window selects its entry (R23). -/
theorem slotOf_ctWindow (i : Byte) : slotOf (windowOffset 0x400#12 i) = .ct i := by
  revert i; decide +kernel

/-- Every offset of the P565 window selects its entry (R23). -/
theorem slotOf_p565Window (i : Byte) : slotOf (windowOffset 0x800#12 i) = .p565 i := by
  revert i; decide +kernel

/-- Bits [11:10] of an offset. -/
theorem offset_top (o : BitVec 12) (k : BitVec 2) : o.extractLsb' 10 2 = k ↔ o.toNat / 1024 = k.toNat := by
  have ho := o.isLt
  rw [← BitVec.toNat_inj, BitVec.extractLsb'_toNat, Nat.shiftRight_eq_div_pow]
  omega

/-- Every aligned reserved offset selects no register (R219). -/
theorem slotOf_reserved (o : BitVec 12) (hr : isReservedOffset o = true) : slotOf o = .reserved := by
  simp only [isReservedOffset, Bool.or_eq_true, Bool.and_eq_true, decide_eq_true_eq] at hr
  have h1 : ¬ o.extractLsb' 10 2 = 1#2 := by rw [offset_top]; simp; omega
  have h2 : ¬ o.extractLsb' 10 2 = 2#2 := by rw [offset_top]; simp; omega
  have hne : ∀ k : BitVec 12, k.toNat < 0x40 → o ≠ k := by rintro k hk rfl; omega
  unfold slotOf
  iterate 16 refine (if_neg (hne _ ?_)).trans ?_; decide
  rw [if_neg h1, if_neg h2]

/-- The register map, by ranges of aligned offsets (R23). -/
theorem slotOf_cases (o : BitVec 12) (ha : o.toNat % 4 = 0) :
   (∃ k : Fin 16, o = BitVec.ofNat 12 (4 * k.val)) ∨ 
   (0x400 ≤ o.toNat ∧ o.toNat < 0x800 ∧ slotOf o = .ct (BitVec.ofNat 8 ((o.toNat - 0x400)/4))) ∨
   (0x800 ≤ o.toNat ∧ o.toNat < 0xC00 ∧ slotOf o = .p565 (BitVec.ofNat 8 ((o.toNat - 0x800)/4))) ∨
   (isReservedOffset o = true ∧ slotOf o = .reserved) := by
  by_cases h : o.toNat < 0x40
  · refine .inl ⟨⟨o.toNat / 4, by omega⟩, ?_⟩
    apply BitVec.eq_of_toNat_eq
    have := o.isLt
    rw [BitVec.toNat_ofNat, Nat.mod_eq_of_lt] <;> simp only <;> omega
  have hne : ∀ k : BitVec 12, k.toNat < 0x40 → o ≠ k := by rintro k hk rfl; omega
  by_cases h1 : 0x400 ≤ o.toNat ∧ o.toNat < 0x800
  · refine .inr (.inl ⟨h1.1, h1.2, ?_⟩)
    have e : o.extractLsb' 10 2 = 1#2 := by rw [offset_top]; simp; omega
    unfold slotOf
    iterate 16 refine (if_neg (hne _ ?_)).trans ?_; decide
    have e2 : o.extractLsb' 2 8 = BitVec.ofNat 8 ((o.toNat - 0x400)/4) := by
      apply BitVec.eq_of_toNat_eq
      rw [BitVec.extractLsb'_toNat, BitVec.toNat_ofNat, Nat.shiftRight_eq_div_pow]
      omega
    rw [if_pos e, e2]
  by_cases h2 : 0x800 ≤ o.toNat ∧ o.toNat < 0xC00
  · refine .inr (.inr (.inl ⟨h2.1, h2.2, ?_⟩))
    have e : o.extractLsb' 10 2 = 2#2 := by rw [offset_top]; simp; omega
    have e1 : ¬ o.extractLsb' 10 2 = 1#2 := by rw [e]; decide
    unfold slotOf
    iterate 16 refine (if_neg (hne _ ?_)).trans ?_; decide
    have e2 : o.extractLsb' 2 8 = BitVec.ofNat 8 ((o.toNat - 0x800)/4) := by
      apply BitVec.eq_of_toNat_eq
      rw [BitVec.extractLsb'_toNat, BitVec.toNat_ofNat, Nat.shiftRight_eq_div_pow]
      omega
    rw [if_neg e1, if_pos e, e2]
  have hr : isReservedOffset o = true := by
    simp only [isReservedOffset, Bool.or_eq_true, Bool.and_eq_true, decide_eq_true_eq]
    have := o.isLt
    omega
  exact .inr (.inr (.inr ⟨hr, slotOf_reserved o hr⟩))

/-- The only offset that selects CMD is 0x000 (R23). -/
theorem slotOf_cmd {o : BitVec 12} (h : slotOf o = .cmd) : o = 0x000#12 := by
  have skip : ∀ {p : Prop} [Decidable p] {a b : Slot}, a ≠ .cmd → b ≠ .cmd → (if p then a else b) ≠ .cmd :=
    fun ha hb => by split <;> assumption
  by_contra hc
  unfold slotOf at h
  rw [if_neg hc] at h
  refine absurd h ?_
  iterate 17 refine skip (by nofun) ?_
  nofun

/-- The bytes of a word put together from four bytes. -/
theorem word_of_bytes (x y z v : Byte) :
    (x ++ y ++ z ++ v : Word).extractLsb' 0 8 = v ∧ (x ++ y ++ z ++ v : Word).extractLsb' 8 8 = z ∧
      (x ++ y ++ z ++ v : Word).extractLsb' 16 8 = y ∧ (x ++ y ++ z ++ v : Word).extractLsb' 24 8 = x := by
  refine ⟨?_, ?_, ?_, ?_⟩ <;>
    (apply BitVec.eq_of_toNat_eq
     simp only [BitVec.extractLsb'_toNat, BitVec.toNat_append, Nat.shiftRight_eq_div_pow]
     have hx := x.isLt
     have hy := y.isLt
     have hz := z.isLt
     have hv := v.isLt
     rw [← Nat.shiftLeft_add_eq_or_of_lt hv, ← Nat.shiftLeft_add_eq_or_of_lt hz,
       ← Nat.shiftLeft_add_eq_or_of_lt hy]
     simp only [Nat.shiftLeft_eq]
     omega)

/-- A word is put together from its four bytes. -/
theorem word_eq_bytes (w : Word) :
    w = w.extractLsb' 24 8 ++ w.extractLsb' 16 8 ++ w.extractLsb' 8 8 ++ w.extractLsb' 0 8 := by
  apply BitVec.eq_of_toNat_eq
  simp only [BitVec.extractLsb'_toNat, BitVec.toNat_append, Nat.shiftRight_eq_div_pow]
  have hw := w.isLt
  rw [← Nat.shiftLeft_add_eq_or_of_lt (by omega), ← Nat.shiftLeft_add_eq_or_of_lt (by omega),
    ← Nat.shiftLeft_add_eq_or_of_lt (by omega)]
  simp only [Nat.shiftLeft_eq]
  omega

/-- Words with equal bytes are equal. -/
theorem word_ext {w v : Word} (h0 : w.extractLsb' 0 8 = v.extractLsb' 0 8) (h1 : w.extractLsb' 8 8 = v.extractLsb' 8 8)
    (h2 : w.extractLsb' 16 8 = v.extractLsb' 16 8) (h3 : w.extractLsb' 24 8 = v.extractLsb' 24 8) : w = v := by
  rw [word_eq_bytes w, word_eq_bytes v, h0, h1, h2, h3]

/-- A byte of a eq_of_masked word. -/
theorem masked_byte {w m v : Word} (h : w &&& m = v) (n : Nat) :
    w.extractLsb' n 8 &&& m.extractLsb' n 8 = v.extractLsb' n 8 := by
  rw [← h, BitVec.extractLsb'_and]

theorem byte_and_ff (x : Byte) : x &&& 0xFF#8 = x := by revert x; decide

/-- A word that passes the mask of SET_GAMMA (R94). -/
theorem setGamma_of_masked {w : Word} (h : w &&& 0xFFFF00FF#32 = 5#32) : w = 0#16 ++ w.extractLsb' 8 8 ++ 0x05#8 := by
  have h3 : w.extractLsb' 24 8 = 0#8 := (byte_and_ff _).symm.trans (masked_byte h 24)
  have h2 : w.extractLsb' 16 8 = 0#8 := (byte_and_ff _).symm.trans (masked_byte h 16)
  have h0 : w.extractLsb' 0 8 = 5#8 := (byte_and_ff _).symm.trans (masked_byte h 0)
  have hb := word_eq_bytes w
  rw [h3, h2, h0] at hb
  exact hb

/-- A word that passes the mask of NEAREST (R94). -/
theorem nearest_of_masked {w : Word} (h : w &&& 0x000000FF#32 = 6#32) :
    w = w.extractLsb' 24 8 ++ w.extractLsb' 16 8 ++ w.extractLsb' 8 8 ++ 0x06#8 := by
  have h0 : w.extractLsb' 0 8 = 6#8 := (byte_and_ff _).symm.trans (masked_byte h 0)
  have hb := word_eq_bytes w
  rw [h0] at hb
  exact hb

theorem ack_byte : ∀ z : Byte, z &&& 0xFC#8 = 0#8 →
    0#8 ++ 0#8 ++ z ++ 7#8 = 0#22 ++ BitVec.ofBool (z.getLsbD 1) ++ BitVec.ofBool (z.getLsbD 0) ++ 0x07#8 := by decide +kernel

/-- A word that passes the mask of ACK (R94). -/
theorem ack_of_masked {w : Word} (h : w &&& 0xFFFFFCFF#32 = 7#32) :
    w = 0#22 ++ BitVec.ofBool (w.getLsbD 9) ++ BitVec.ofBool (w.getLsbD 8) ++ 0x07#8 := by
  have h3 : w.extractLsb' 24 8 = 0#8 := (byte_and_ff _).symm.trans (masked_byte h 24)
  have h2 : w.extractLsb' 16 8 = 0#8 := (byte_and_ff _).symm.trans (masked_byte h 16)
  have h0 : w.extractLsb' 0 8 = 7#8 := (byte_and_ff _).symm.trans (masked_byte h 0)
  have h1 : w.extractLsb' 8 8 &&& 0xFC#8 = 0#8 := masked_byte h 8
  have hb := word_eq_bytes w
  rw [h3, h2, h0, ack_byte _ h1] at hb
  simpa using hb

/-- A word compared in every bit (R94). -/
theorem eq_of_masked {w v : Word} (h : w &&& 0xFFFFFFFF#32 = v) : w = v := by
  rw [← h]
  exact (BitVec.and_allOnes (x := w)).symm

/-- Everything the decoding of a command word can give (R101). -/
theorem decodeCommand_cases (w : Word) :
   (8 ≤ (w.extractLsb' 0 4).toNat ∧ decodeCommand w = .ok (.reservedOpcode w)) ∨ 
   (∃ c, decodeCommand w = .ok c ∧ encodeCommand c = w ∧ ∀ v, c ≠ .reservedOpcode v) ∨
   decodeCommand w = .error .reservedBits := by
  simp only [decodeCommand]
  generalize hop : (w.extractLsb' 0 4).toNat = op
  by_cases h8 : 8 ≤ op
  · exact .inl ⟨h8, by simp [h8]⟩
  by_cases hm : w &&& opMask op ≠ opMatch op
  · exact .inr (.inr (by simp [h8, hm]))
  · simp only [if_neg h8, if_neg hm]
    refine .inr (.inl ⟨_, rfl, ?_⟩)
    simp only [ne_eq, not_not] at hm
    have : op < 8 := by omega
    clear hop h8
    interval_cases op
    · exact ⟨(eq_of_masked hm).symm, by intro v h; cases h⟩
    · exact ⟨(eq_of_masked hm).symm, by intro v h; cases h⟩
    · exact ⟨(eq_of_masked hm).symm, by intro v h; cases h⟩
    · exact ⟨(eq_of_masked hm).symm, by intro v h; cases h⟩
    · exact ⟨(eq_of_masked hm).symm, by intro v h; cases h⟩
    · exact ⟨(setGamma_of_masked hm).symm, by intro v h; cases h⟩
    · exact ⟨(nearest_of_masked hm).symm, by intro v h; cases h⟩
    · exact ⟨(ack_of_masked hm).symm, by intro v h; cases h⟩

@[simp] theorem decodeCommand_nop : decodeCommand 0x0#32 = .ok .nop := by decide
@[simp] theorem decodeCommand_init : decodeCommand 0x1#32 = .ok .init := by decide
@[simp] theorem decodeCommand_shutdown : decodeCommand 0x2#32 = .ok .shutdown := by decide
@[simp] theorem decodeCommand_present : decodeCommand 0x3#32 = .ok .present := by decide
@[simp] theorem decodeCommand_setPalette : decodeCommand 0x4#32 = .ok .setPalette := by decide

/-- NEAREST with any operands decodes to it (R93, R94). -/
theorem decodeCommand_nearest (r g b : Byte) : decodeCommand (b ++ g ++ r ++ 0x06#8) = .ok (.nearest r g b) := by
  obtain ⟨h0, h1, h2, h3⟩ := word_of_bytes b g r 0x06#8
  have hop : ((b ++ g ++ r ++ 0x06#8 : Word).extractLsb' 0 4).toNat = 6 := by
    have h := congrArg BitVec.toNat h0
    simp only [BitVec.extractLsb'_toNat, Nat.shiftRight_zero] at h ⊢
    have e : (0x06#8).toNat = 6 := rfl
    omega
  have hm : (b ++ g ++ r ++ 0x06#8 : Word) &&& opMask 6 = opMatch 6 := by
    apply word_ext <;> rw [BitVec.extractLsb'_and]
    · rw [h0]; rfl
    · rw [h1]; exact BitVec.and_zero
    · rw [h2]; exact BitVec.and_zero
    · rw [h3]; exact BitVec.and_zero
  simp only [decodeCommand, hop]
  rw [if_neg (by decide), if_neg (fun h => h hm)]
  simp only [commandOf, h1, h2, h3]

/-- SET_GAMMA with any level decodes to it (R93, R94). -/
theorem decodeCommand_setGamma : ∀ level : Byte, decodeCommand (0#16 ++ level ++ 0x05#8) = .ok (.setGamma level) := by
  decide +kernel

/-- A reserved opcode decodes to itself (R95). -/
theorem decodeCommand_reservedOpcode {w : Word} (h : 8 ≤ (w.extractLsb' 0 4).toNat) :
    decodeCommand w = .ok (.reservedOpcode w) := by
  simp only [decodeCommand]
  rw [if_pos h]

/-- An access is the write operation of CMD only where it is a 32-bit write at offset 0 (R102). -/
theorem access_of_wrCmd {a : Access} {v : Word} (h : decode (.access a) = .ok (.wrCmd v)) :
    a = { offset := 0x000#12, size := .b4, dir := .write v } := by
  obtain ⟨o, size, dir⟩ := a
  simp only [decode, decodeAccess] at h
  split at h
  · cases h
  rename_i hs
  split at h
  · cases h
  simp only [ne_eq, not_not] at hs
  subst hs
  cases dir with
  | read =>
    simp only [decodeRead] at h
    cases hs : slotOf o <;> rw [hs] at h <;> cases h
  | write v =>
    simp only [decodeWrite] at h
    cases hs : slotOf o <;> rw [hs] at h <;> cases h
    rw [slotOf_cmd hs]

end Sys2Proof
end

