-- ==== Sys2Proof/Laws/Memory.lean ====
section
/-! SUPPORT. Laws of system memory: what a read gives after each write operation, and that each keeps the canonical
form. -/

namespace Sys2Proof.Machine.Memory

/-! ### One cell -/

@[simp] theorem read_nil (a : Nat) : Memory.read [] a = unlisted := rfl

theorem read_cons (b : Nat) (v : Byte) (m : Memory) (a : Nat) :
    Memory.read ((b, v) :: m) a = if a = b then v else Memory.read m a := rfl

/-- An address below every listed one reads as unlisted. -/
theorem read_below {m : Memory} {a : Nat} (h : ∀ c ∈ m, a < c.1) : m.read a = unlisted := by
  induction m with
  | nil => rfl
  | cons c m ih =>
    obtain ⟨b, v⟩ := c
    have hb : a < b := h (b, v) (by simp)
    rw [read_cons, if_neg (by omega)]
    exact ih fun c hc => h c (by simp [hc])

/-- Read after set, on a list whose addresses rise. -/
theorem read_set {m : Memory} (hm : m.Pairwise (fun x y => x.1 < y.1)) (a b : Nat) (v : Byte) :
    (m.set a v).read b = if b = a then v else m.read b := by
  induction m with
  | nil =>
    by_cases hv : v = unlisted
    · simp [Memory.set, hv]
    · simp [Memory.set, hv, read_cons]
  | cons c m ih =>
    obtain ⟨x, w⟩ := c
    rw [List.pairwise_cons] at hm
    have hx : ∀ c ∈ m, x < c.1 := fun c hc => hm.1 c hc
    rcases Nat.lt_trichotomy a x with hax | hax | hax
    · have hlow : Memory.read ((x, w) :: m) a = unlisted :=
        read_below fun c hc => by
          rcases List.mem_cons.1 hc with rfl | hc
          · exact hax
          · exact Nat.lt_trans hax (hx c hc)
      by_cases hv : v = unlisted
      · simp only [Memory.set, if_pos hax, if_pos hv]
        by_cases hb : b = a
        · subst hb; simp [hlow, hv]
        · simp [hb]
      · simp only [Memory.set, if_pos hax, if_neg hv]
        rw [read_cons]
    · subst hax
      by_cases hv : v = unlisted
      · simp only [Memory.set, Nat.lt_irrefl, if_false, if_true, if_pos hv]
        by_cases hb : b = a
        · subst hb; simp [read_below hx, hv]
        · simp [hb, read_cons]
      · simp only [Memory.set, Nat.lt_irrefl, if_false, if_true, if_neg hv]
        by_cases hb : b = a <;> simp [hb, read_cons]
    · simp only [Memory.set, if_neg (Nat.lt_asymm hax), if_neg (Nat.ne_of_gt hax)]
      rw [read_cons, read_cons, ih hm.2]
      by_cases hb : b = x
      · have : ¬ b = a := by omega
        simp [hb, Nat.ne_of_lt hax]
      · simp [hb]

/-- Every cell of a list after a set is an old cell or the new one. -/
theorem mem_set {m : Memory} {a : Nat} {v : Byte} {c : Host.Cell} (hc : c ∈ m.set a v) :
    c ∈ m ∨ (c = (a, v) ∧ v ≠ unlisted) := by
  induction m with
  | nil =>
    by_cases hv : v = unlisted
    · simp [Memory.set, hv] at hc
    · simp [Memory.set, hv] at hc; exact .inr ⟨hc, hv⟩
  | cons d m ih =>
    obtain ⟨x, w⟩ := d
    rcases Nat.lt_trichotomy a x with hax | hax | hax
    · by_cases hv : v = unlisted
      · simp only [Memory.set, if_pos hax, if_pos hv] at hc; exact .inl hc
      · simp only [Memory.set, if_pos hax, if_neg hv] at hc
        rcases List.mem_cons.1 hc with hc | hc
        · exact .inr ⟨hc, hv⟩
        · exact .inl hc
    · subst hax
      by_cases hv : v = unlisted
      · simp only [Memory.set, Nat.lt_irrefl, if_false, if_true, if_pos hv] at hc
        exact .inl (List.mem_cons_of_mem _ hc)
      · simp only [Memory.set, Nat.lt_irrefl, if_false, if_true, if_neg hv] at hc
        rcases List.mem_cons.1 hc with hc | hc
        · exact .inr ⟨hc, hv⟩
        · exact .inl (List.mem_cons_of_mem _ hc)
    · simp only [Memory.set, if_neg (Nat.lt_asymm hax), if_neg (Nat.ne_of_gt hax)] at hc
      rcases List.mem_cons.1 hc with hc | hc
      · exact .inl (hc ▸ List.mem_cons_self)
      · exact (ih hc).imp_left (List.mem_cons_of_mem _)

/-- A set keeps the addresses rising. -/
theorem set_pairwise {m : Memory} (hm : m.Pairwise (fun x y => x.1 < y.1)) (a : Nat) (v : Byte) :
    (m.set a v).Pairwise (fun x y => x.1 < y.1) := by
  induction m with
  | nil =>
    by_cases hv : v = unlisted <;> simp [Memory.set, hv]
  | cons c m ih =>
    obtain ⟨x, w⟩ := c
    have hm' := List.pairwise_cons.1 hm
    rcases Nat.lt_trichotomy a x with hax | hax | hax
    · by_cases hv : v = unlisted
      · simp only [Memory.set, if_pos hax, if_pos hv]; exact hm
      · simp only [Memory.set, if_pos hax, if_neg hv]
        refine List.pairwise_cons.2 ⟨fun d hd => ?_, hm⟩
        rcases List.mem_cons.1 hd with rfl | hd
        · exact hax
        · exact Nat.lt_trans hax (hm'.1 d hd)
    · subst hax
      by_cases hv : v = unlisted
      · simp only [Memory.set, Nat.lt_irrefl, if_false, if_true, if_pos hv]; exact hm'.2
      · simp only [Memory.set, Nat.lt_irrefl, if_false, if_true, if_neg hv]
        exact List.pairwise_cons.2 ⟨fun d hd => hm'.1 d hd, hm'.2⟩
    · simp only [Memory.set, if_neg (Nat.lt_asymm hax), if_neg (Nat.ne_of_gt hax)]
      refine List.pairwise_cons.2 ⟨fun d hd => ?_, ih hm'.2⟩
      rcases mem_set hd with hd | ⟨rfl, -⟩
      · exact hm'.1 d hd
      · exact hax

/-! ### Writes -/

/-- A write keeps the canonical form. -/
theorem write_wf {m : Memory} (hm : m.wf) (a : Nat) (v : Byte) : (m.write a v).wf := by
  unfold Memory.write
  split
  · rename_i ha
    refine ⟨set_pairwise hm.1 a v, fun c hc => ?_⟩
    rcases mem_set hc with hc | ⟨rfl, hv⟩
    · exact hm.2 c hc
    · exact ⟨ha, hv⟩
  · exact hm

/-- Read after a write: the byte written at its address, every other byte as before. -/
theorem read_write {m : Memory} (hm : m.wf) (a b : Nat) (v : Byte) :
    (m.write a v).read b = if b = a ∧ a < 2 ^ 64 then v else m.read b := by
  unfold Memory.write Config.addressSpace
  by_cases ha : a < 2 ^ 64
  · rw [if_pos ha, read_set hm.1]; simp only [ha, and_true]
  · rw [if_neg ha, if_neg fun h => ha h.2]

theorem fill_wf {m : Memory} (hm : m.wf) (base : Nat) (f : Nat → Byte) (n : Nat) : (m.fill base f n).wf := by
  induction n with
  | zero => exact hm
  | succ n ih => exact write_wf ih _ _

/-- Read after a fill: byte number a − base inside the filled span, as before outside. -/
theorem read_fill {m : Memory} (hm : m.wf) (base : Nat) (f : Nat → Byte) (n a : Nat) :
    (m.fill base f n).read a =
      if base ≤ a ∧ a < base + n ∧ a < 2 ^ 64 then f (a - base) else m.read a := by
  induction n with
  | zero => rw [if_neg (by omega)]; rfl
  | succ n ih =>
    rw [Memory.fill, read_write (fill_wf hm base f n), ih]
    by_cases h1 : a = base + n ∧ base + n < 2 ^ 64
    · obtain ⟨rfl, h⟩ := h1
      rw [if_pos ⟨rfl, h⟩, if_pos (by omega), Nat.add_sub_cancel_left]
    · rw [if_neg h1]
      by_cases h2 : base ≤ a ∧ a < base + n ∧ a < 2 ^ 64
      · rw [if_pos h2, if_pos (by omega)]
      · rw [if_neg h2, if_neg (by omega)]

theorem write64_wf {m : Memory} (hm : m.wf) (a : Nat) (v : DWord) : (m.write64 a v).wf := fill_wf hm _ _ _

/-- Read after a 64-bit write: little-endian bytes of the word, as before outside (R61). -/
theorem read_write64 {m : Memory} (hm : m.wf) (base : Nat) (v : DWord) (a : Nat) :
    (m.write64 base v).read a =
      if base ≤ a ∧ a < base + 8 ∧ a < 2 ^ 64 then v.extractLsb' (8 * (a - base)) 8 else m.read a :=
  read_fill hm base _ 8 a

theorem writePairs_wf {m : Memory} (hm : m.wf) (base : Nat) (f : Nat → DWord) (n : Nat) :
    (m.writePairs base f n).wf := by
  induction n with
  | zero => exact hm
  | succ n ih => exact write64_wf ih _ _

/-- Read after `n` pair writes: byte (a − base) mod 8 of pair (a − base) / 8, as before outside (R154). -/
theorem read_writePairs {m : Memory} (hm : m.wf) (base : Nat) (f : Nat → DWord) (n a : Nat) :
    (m.writePairs base f n).read a =
      if base ≤ a ∧ a < base + 8 * n ∧ a < 2 ^ 64 then
        (f ((a - base) / 8)).extractLsb' (8 * ((a - base) % 8)) 8
      else m.read a := by
  induction n with
  | zero => rw [if_neg (by omega)]; rfl
  | succ n ih =>
    rw [Memory.writePairs, read_write64 (writePairs_wf hm base f n), ih]
    by_cases h1 : base + Config.pairBytes * n ≤ a ∧ a < base + Config.pairBytes * n + 8 ∧ a < 2 ^ 64
    · have e1 : (a - base) / 8 = n := by simp only [Config.pairBytes] at h1; omega
      have e2 : a - (base + Config.pairBytes * n) = (a - base) % 8 := by
        simp only [Config.pairBytes] at h1 ⊢; omega
      rw [if_pos h1, if_pos (by simp only [Config.pairBytes] at h1; omega), e1, e2]
    · rw [if_neg h1]
      simp only [Config.pairBytes] at h1
      by_cases h2 : base ≤ a ∧ a < base + 8 * n ∧ a < 2 ^ 64
      · rw [if_pos h2, if_pos (by omega)]
      · rw [if_neg h2, if_neg (by omega)]

theorem scribble_wf {m : Memory} (hm : m.wf) (f : Nat → Byte) (as : List Nat) : (m.scribble f as).wf := by
  induction as with
  | nil => exact hm
  | cons a as ih => exact write_wf ih _ _

/-- Read after a scribble: the scribbled byte at a listed address, as before elsewhere. -/
theorem read_scribble {m : Memory} (hm : m.wf) (f : Nat → Byte) (as : List Nat) (a : Nat) :
    (m.scribble f as).read a = if a ∈ as ∧ a < 2 ^ 64 then f a else m.read a := by
  induction as with
  | nil => simp [Memory.scribble]
  | cons b as ih =>
    rw [Memory.scribble, read_write (scribble_wf hm f as), ih]
    by_cases hb : a = b
    · subst hb
      by_cases ha : a < 2 ^ 64 <;> simp only [ha, and_true, and_false, if_true, if_false, List.mem_cons_self]
    · simp only [hb, false_and, if_false, List.mem_cons, false_or]

end Sys2Proof.Machine.Memory
end

