-- ==== Sys2Proof/Laws/State.lean ====
section
/-! SUPPORT. One lemma per field per update of State, each true by rfl, so that no proof unfolds an update. -/

namespace Sys2Proof.Machine.State


/-! ### respond -/

@[simp] theorem respond_width (s : State) (r : Response) : (s.respond r).width = s.width := rfl
@[simp] theorem respond_height (s : State) (r : Response) : (s.respond r).height = s.height := rfl
@[simp] theorem respond_logBase (s : State) (r : Response) : (s.respond r).logBase = s.logBase := rfl
@[simp] theorem respond_physBase (s : State) (r : Response) : (s.respond r).physBase = s.physBase := rfl
@[simp] theorem respond_palSrc (s : State) (r : Response) : (s.respond r).palSrc = s.palSrc := rfl
@[simp] theorem respond_gamma (s : State) (r : Response) : (s.respond r).gamma = s.gamma := rfl
@[simp] theorem respond_frameCount (s : State) (r : Response) : (s.respond r).frameCount = s.frameCount := rfl
@[simp] theorem respond_nearest (s : State) (r : Response) : (s.respond r).nearest = s.nearest := rfl
@[simp] theorem respond_active (s : State) (r : Response) : (s.respond r).active = s.active := rfl
@[simp] theorem respond_initFlag (s : State) (r : Response) : (s.respond r).initFlag = s.initFlag := rfl
@[simp] theorem respond_statDue (s : State) (r : Response) : (s.respond r).statDue = s.statDue := rfl
@[simp] theorem respond_err (s : State) (r : Response) : (s.respond r).err = s.err := rfl
@[simp] theorem respond_pending (s : State) (r : Response) : (s.respond r).pending = s.pending := rfl
@[simp] theorem respond_geom (s : State) (r : Response) : (s.respond r).geom = s.geom := rfl
@[simp] theorem respond_ct (s : State) (r : Response) : (s.respond r).ct = s.ct := rfl
@[simp] theorem respond_p565 (s : State) (r : Response) : (s.respond r).p565 = s.p565 := rfl
@[simp] theorem respond_stageCt (s : State) (r : Response) : (s.respond r).stageCt = s.stageCt := rfl
@[simp] theorem respond_stageP565 (s : State) (r : Response) : (s.respond r).stageP565 = s.stageP565 := rfl
@[simp] theorem respond_mem (s : State) (r : Response) : (s.respond r).mem = s.mem := rfl
@[simp] theorem respond_flip (s : State) (r : Response) : (s.respond r).flip = s.flip := rfl
@[simp] theorem respond_resp (s : State) (r : Response) : (s.respond r).resp = r := rfl
@[simp] theorem respond_inflight (s : State) (r : Response) : (s.respond r).inflight = s.inflight := rfl
@[simp] theorem respond_bus (s : State) (r : Response) : (s.respond r).bus = s.bus := rfl
@[simp] theorem respond_inbox (s : State) (r : Response) : (s.respond r).inbox = s.inbox := rfl
@[simp] theorem respond_fresh (s : State) (r : Response) : (s.respond r).fresh = s.fresh := rfl

/-! ### recordErr -/

@[simp] theorem recordErr_width (s : State) (code : ErrCode) : (s.recordErr code).width = s.width := rfl
@[simp] theorem recordErr_height (s : State) (code : ErrCode) : (s.recordErr code).height = s.height := rfl
@[simp] theorem recordErr_logBase (s : State) (code : ErrCode) : (s.recordErr code).logBase = s.logBase := rfl
@[simp] theorem recordErr_physBase (s : State) (code : ErrCode) : (s.recordErr code).physBase = s.physBase := rfl
@[simp] theorem recordErr_palSrc (s : State) (code : ErrCode) : (s.recordErr code).palSrc = s.palSrc := rfl
@[simp] theorem recordErr_gamma (s : State) (code : ErrCode) : (s.recordErr code).gamma = s.gamma := rfl
@[simp] theorem recordErr_frameCount (s : State) (code : ErrCode) : (s.recordErr code).frameCount = s.frameCount := rfl
@[simp] theorem recordErr_nearest (s : State) (code : ErrCode) : (s.recordErr code).nearest = s.nearest := rfl
@[simp] theorem recordErr_active (s : State) (code : ErrCode) : (s.recordErr code).active = s.active := rfl
@[simp] theorem recordErr_initFlag (s : State) (code : ErrCode) : (s.recordErr code).initFlag = s.initFlag := rfl
@[simp] theorem recordErr_statDue (s : State) (code : ErrCode) : (s.recordErr code).statDue = s.statDue := rfl
@[simp] theorem recordErr_err (s : State) (code : ErrCode) :
    (s.recordErr code).err = if s.err = .noError then code else s.err := rfl
@[simp] theorem recordErr_pending (s : State) (code : ErrCode) : (s.recordErr code).pending = s.pending := rfl
@[simp] theorem recordErr_geom (s : State) (code : ErrCode) : (s.recordErr code).geom = s.geom := rfl
@[simp] theorem recordErr_ct (s : State) (code : ErrCode) : (s.recordErr code).ct = s.ct := rfl
@[simp] theorem recordErr_p565 (s : State) (code : ErrCode) : (s.recordErr code).p565 = s.p565 := rfl
@[simp] theorem recordErr_stageCt (s : State) (code : ErrCode) : (s.recordErr code).stageCt = s.stageCt := rfl
@[simp] theorem recordErr_stageP565 (s : State) (code : ErrCode) : (s.recordErr code).stageP565 = s.stageP565 := rfl
@[simp] theorem recordErr_mem (s : State) (code : ErrCode) : (s.recordErr code).mem = s.mem := rfl
@[simp] theorem recordErr_flip (s : State) (code : ErrCode) : (s.recordErr code).flip = s.flip := rfl
@[simp] theorem recordErr_resp (s : State) (code : ErrCode) : (s.recordErr code).resp = s.resp := rfl
@[simp] theorem recordErr_inflight (s : State) (code : ErrCode) : (s.recordErr code).inflight = s.inflight := rfl
@[simp] theorem recordErr_bus (s : State) (code : ErrCode) : (s.recordErr code).bus = s.bus := rfl
@[simp] theorem recordErr_inbox (s : State) (code : ErrCode) : (s.recordErr code).inbox = s.inbox := rfl
@[simp] theorem recordErr_fresh (s : State) (code : ErrCode) : (s.recordErr code).fresh = s.fresh := rfl

/-! ### complete -/

@[simp] theorem complete_width (s : State) : s.complete.width = s.width := rfl
@[simp] theorem complete_height (s : State) : s.complete.height = s.height := rfl
@[simp] theorem complete_logBase (s : State) : s.complete.logBase = s.logBase := rfl
@[simp] theorem complete_physBase (s : State) : s.complete.physBase = s.physBase := rfl
@[simp] theorem complete_palSrc (s : State) : s.complete.palSrc = s.palSrc := rfl
@[simp] theorem complete_gamma (s : State) : s.complete.gamma = s.gamma := rfl
@[simp] theorem complete_frameCount (s : State) : s.complete.frameCount = s.frameCount := rfl
@[simp] theorem complete_nearest (s : State) : s.complete.nearest = s.nearest := rfl
@[simp] theorem complete_active (s : State) : s.complete.active = s.active := rfl
@[simp] theorem complete_initFlag (s : State) : s.complete.initFlag = s.initFlag := rfl
@[simp] theorem complete_statDue (s : State) : s.complete.statDue = s.statDue := rfl
@[simp] theorem complete_err (s : State) : s.complete.err = s.err := rfl
@[simp] theorem complete_pending (s : State) : s.complete.pending = none := rfl
@[simp] theorem complete_geom (s : State) : s.complete.geom = s.geom := rfl
@[simp] theorem complete_ct (s : State) : s.complete.ct = s.ct := rfl
@[simp] theorem complete_p565 (s : State) : s.complete.p565 = s.p565 := rfl
@[simp] theorem complete_stageCt (s : State) : s.complete.stageCt = s.stageCt := rfl
@[simp] theorem complete_stageP565 (s : State) : s.complete.stageP565 = s.stageP565 := rfl
@[simp] theorem complete_mem (s : State) : s.complete.mem = s.mem := rfl
@[simp] theorem complete_flip (s : State) : s.complete.flip = s.flip := rfl
@[simp] theorem complete_resp (s : State) : s.complete.resp = s.resp := rfl
@[simp] theorem complete_inflight (s : State) : s.complete.inflight = s.inflight := rfl
@[simp] theorem complete_bus (s : State) : s.complete.bus = s.bus := rfl
@[simp] theorem complete_inbox (s : State) : s.complete.inbox = s.inbox := rfl
@[simp] theorem complete_fresh (s : State) : s.complete.fresh = s.fresh := rfl

/-! ### raiseErr -/

@[simp] theorem raiseErr_width (s : State) (code : ErrCode) : (s.raiseErr code).width = s.width := rfl
@[simp] theorem raiseErr_height (s : State) (code : ErrCode) : (s.raiseErr code).height = s.height := rfl
@[simp] theorem raiseErr_logBase (s : State) (code : ErrCode) : (s.raiseErr code).logBase = s.logBase := rfl
@[simp] theorem raiseErr_physBase (s : State) (code : ErrCode) : (s.raiseErr code).physBase = s.physBase := rfl
@[simp] theorem raiseErr_palSrc (s : State) (code : ErrCode) : (s.raiseErr code).palSrc = s.palSrc := rfl
@[simp] theorem raiseErr_gamma (s : State) (code : ErrCode) : (s.raiseErr code).gamma = s.gamma := rfl
@[simp] theorem raiseErr_frameCount (s : State) (code : ErrCode) : (s.raiseErr code).frameCount = s.frameCount := rfl
@[simp] theorem raiseErr_nearest (s : State) (code : ErrCode) : (s.raiseErr code).nearest = s.nearest := rfl
@[simp] theorem raiseErr_active (s : State) (code : ErrCode) : (s.raiseErr code).active = s.active := rfl
@[simp] theorem raiseErr_initFlag (s : State) (code : ErrCode) : (s.raiseErr code).initFlag = s.initFlag := rfl
@[simp] theorem raiseErr_statDue (s : State) (code : ErrCode) : (s.raiseErr code).statDue = s.statDue := rfl
@[simp] theorem raiseErr_err (s : State) (code : ErrCode) :
    (s.raiseErr code).err = if s.err = .noError then code else s.err := rfl
@[simp] theorem raiseErr_pending (s : State) (code : ErrCode) : (s.raiseErr code).pending = none := rfl
@[simp] theorem raiseErr_geom (s : State) (code : ErrCode) : (s.raiseErr code).geom = s.geom := rfl
@[simp] theorem raiseErr_ct (s : State) (code : ErrCode) : (s.raiseErr code).ct = s.ct := rfl
@[simp] theorem raiseErr_p565 (s : State) (code : ErrCode) : (s.raiseErr code).p565 = s.p565 := rfl
@[simp] theorem raiseErr_stageCt (s : State) (code : ErrCode) : (s.raiseErr code).stageCt = s.stageCt := rfl
@[simp] theorem raiseErr_stageP565 (s : State) (code : ErrCode) : (s.raiseErr code).stageP565 = s.stageP565 := rfl
@[simp] theorem raiseErr_mem (s : State) (code : ErrCode) : (s.raiseErr code).mem = s.mem := rfl
@[simp] theorem raiseErr_flip (s : State) (code : ErrCode) : (s.raiseErr code).flip = s.flip := rfl
@[simp] theorem raiseErr_resp (s : State) (code : ErrCode) : (s.raiseErr code).resp = s.resp := rfl
@[simp] theorem raiseErr_inflight (s : State) (code : ErrCode) : (s.raiseErr code).inflight = s.inflight := rfl
@[simp] theorem raiseErr_bus (s : State) (code : ErrCode) : (s.raiseErr code).bus = s.bus := rfl
@[simp] theorem raiseErr_inbox (s : State) (code : ErrCode) : (s.raiseErr code).inbox = s.inbox := rfl
@[simp] theorem raiseErr_fresh (s : State) (code : ErrCode) : (s.raiseErr code).fresh = s.fresh := rfl

/-! ### beginStep -/

@[simp] theorem beginStep_width (s : State) : s.beginStep.width = s.width := rfl
@[simp] theorem beginStep_height (s : State) : s.beginStep.height = s.height := rfl
@[simp] theorem beginStep_logBase (s : State) : s.beginStep.logBase = s.logBase := rfl
@[simp] theorem beginStep_physBase (s : State) : s.beginStep.physBase = s.physBase := rfl
@[simp] theorem beginStep_palSrc (s : State) : s.beginStep.palSrc = s.palSrc := rfl
@[simp] theorem beginStep_gamma (s : State) : s.beginStep.gamma = s.gamma := rfl
@[simp] theorem beginStep_frameCount (s : State) : s.beginStep.frameCount = s.frameCount := rfl
@[simp] theorem beginStep_nearest (s : State) : s.beginStep.nearest = s.nearest := rfl
@[simp] theorem beginStep_active (s : State) : s.beginStep.active = s.active := rfl
@[simp] theorem beginStep_initFlag (s : State) : s.beginStep.initFlag = s.initFlag := rfl
@[simp] theorem beginStep_statDue (s : State) : s.beginStep.statDue = s.statDue := rfl
@[simp] theorem beginStep_err (s : State) : s.beginStep.err = s.err := rfl
@[simp] theorem beginStep_pending (s : State) : s.beginStep.pending = s.pending := rfl
@[simp] theorem beginStep_geom (s : State) : s.beginStep.geom = s.geom := rfl
@[simp] theorem beginStep_ct (s : State) : s.beginStep.ct = s.ct := rfl
@[simp] theorem beginStep_p565 (s : State) : s.beginStep.p565 = s.p565 := rfl
@[simp] theorem beginStep_stageCt (s : State) : s.beginStep.stageCt = s.stageCt := rfl
@[simp] theorem beginStep_stageP565 (s : State) : s.beginStep.stageP565 = s.stageP565 := rfl
@[simp] theorem beginStep_mem (s : State) : s.beginStep.mem = s.mem := rfl
@[simp] theorem beginStep_flip (s : State) : s.beginStep.flip = false := rfl
@[simp] theorem beginStep_resp (s : State) : s.beginStep.resp = .none := rfl
@[simp] theorem beginStep_inflight (s : State) : s.beginStep.inflight = s.inflight := rfl
@[simp] theorem beginStep_bus (s : State) : s.beginStep.bus = s.bus := rfl
@[simp] theorem beginStep_inbox (s : State) : s.beginStep.inbox = s.inbox := rfl
@[simp] theorem beginStep_fresh (s : State) : s.beginStep.fresh = s.fresh := rfl

/-! ### takeEvent -/

@[simp] theorem takeEvent_width (s : State) : s.takeEvent.width = s.width := rfl
@[simp] theorem takeEvent_height (s : State) : s.takeEvent.height = s.height := rfl
@[simp] theorem takeEvent_logBase (s : State) : s.takeEvent.logBase = s.logBase := rfl
@[simp] theorem takeEvent_physBase (s : State) : s.takeEvent.physBase = s.physBase := rfl
@[simp] theorem takeEvent_palSrc (s : State) : s.takeEvent.palSrc = s.palSrc := rfl
@[simp] theorem takeEvent_gamma (s : State) : s.takeEvent.gamma = s.gamma := rfl
@[simp] theorem takeEvent_frameCount (s : State) : s.takeEvent.frameCount = s.frameCount := rfl
@[simp] theorem takeEvent_nearest (s : State) : s.takeEvent.nearest = s.nearest := rfl
@[simp] theorem takeEvent_active (s : State) : s.takeEvent.active = s.active := rfl
@[simp] theorem takeEvent_initFlag (s : State) : s.takeEvent.initFlag = s.initFlag := rfl
@[simp] theorem takeEvent_statDue (s : State) : s.takeEvent.statDue = s.statDue := rfl
@[simp] theorem takeEvent_err (s : State) : s.takeEvent.err = s.err := rfl
@[simp] theorem takeEvent_pending (s : State) : s.takeEvent.pending = s.pending := rfl
@[simp] theorem takeEvent_geom (s : State) : s.takeEvent.geom = s.geom := rfl
@[simp] theorem takeEvent_ct (s : State) : s.takeEvent.ct = s.ct := rfl
@[simp] theorem takeEvent_p565 (s : State) : s.takeEvent.p565 = s.p565 := rfl
@[simp] theorem takeEvent_stageCt (s : State) : s.takeEvent.stageCt = s.stageCt := rfl
@[simp] theorem takeEvent_stageP565 (s : State) : s.takeEvent.stageP565 = s.stageP565 := rfl
@[simp] theorem takeEvent_mem (s : State) : s.takeEvent.mem = s.mem := rfl
@[simp] theorem takeEvent_flip (s : State) : s.takeEvent.flip = false := rfl
@[simp] theorem takeEvent_resp (s : State) : s.takeEvent.resp = .none := rfl
@[simp] theorem takeEvent_inflight (s : State) : s.takeEvent.inflight = s.inflight := rfl
@[simp] theorem takeEvent_bus (s : State) : s.takeEvent.bus = s.bus := rfl
@[simp] theorem takeEvent_inbox (s : State) : s.takeEvent.inbox = s.inbox.tail := rfl
@[simp] theorem takeEvent_fresh (s : State) : s.takeEvent.fresh = s.fresh := rfl

/-! ### latch -/

@[simp] theorem latch_width (s : State) (g : Geometry) : (s.latch g).width = s.width := rfl
@[simp] theorem latch_height (s : State) (g : Geometry) : (s.latch g).height = s.height := rfl
@[simp] theorem latch_logBase (s : State) (g : Geometry) : (s.latch g).logBase = s.logBase := rfl
@[simp] theorem latch_physBase (s : State) (g : Geometry) : (s.latch g).physBase = s.physBase := rfl
@[simp] theorem latch_palSrc (s : State) (g : Geometry) : (s.latch g).palSrc = s.palSrc := rfl
@[simp] theorem latch_gamma (s : State) (g : Geometry) : (s.latch g).gamma = s.gamma := rfl
@[simp] theorem latch_frameCount (s : State) (g : Geometry) : (s.latch g).frameCount = 0 := rfl
@[simp] theorem latch_nearest (s : State) (g : Geometry) : (s.latch g).nearest = s.nearest := rfl
@[simp] theorem latch_active (s : State) (g : Geometry) : (s.latch g).active = false := rfl
@[simp] theorem latch_initFlag (s : State) (g : Geometry) : (s.latch g).initFlag = true := rfl
@[simp] theorem latch_statDue (s : State) (g : Geometry) : (s.latch g).statDue = false := rfl
@[simp] theorem latch_err (s : State) (g : Geometry) : (s.latch g).err = s.err := rfl
@[simp] theorem latch_pending (s : State) (g : Geometry) : (s.latch g).pending = none := rfl
@[simp] theorem latch_geom (s : State) (g : Geometry) : (s.latch g).geom = g := rfl
@[simp] theorem latch_ct (s : State) (g : Geometry) : (s.latch g).ct = s.ct := rfl
@[simp] theorem latch_p565 (s : State) (g : Geometry) : (s.latch g).p565 = s.p565 := rfl
@[simp] theorem latch_stageCt (s : State) (g : Geometry) : (s.latch g).stageCt = s.stageCt := rfl
@[simp] theorem latch_stageP565 (s : State) (g : Geometry) : (s.latch g).stageP565 = s.stageP565 := rfl
@[simp] theorem latch_mem (s : State) (g : Geometry) : (s.latch g).mem = s.mem := rfl
@[simp] theorem latch_flip (s : State) (g : Geometry) : (s.latch g).flip = s.flip := rfl
@[simp] theorem latch_resp (s : State) (g : Geometry) : (s.latch g).resp = s.resp := rfl
@[simp] theorem latch_inflight (s : State) (g : Geometry) : (s.latch g).inflight = s.inflight := rfl
@[simp] theorem latch_bus (s : State) (g : Geometry) : (s.latch g).bus = s.bus := rfl
@[simp] theorem latch_inbox (s : State) (g : Geometry) : (s.latch g).inbox = s.inbox := rfl
@[simp] theorem latch_fresh (s : State) (g : Geometry) : (s.latch g).fresh = s.fresh := rfl

/-! ### flipTo -/

@[simp] theorem flipTo_width (s : State) (m : Memory) : (s.flipTo m).width = s.width := rfl
@[simp] theorem flipTo_height (s : State) (m : Memory) : (s.flipTo m).height = s.height := rfl
@[simp] theorem flipTo_logBase (s : State) (m : Memory) : (s.flipTo m).logBase = s.logBase := rfl
@[simp] theorem flipTo_physBase (s : State) (m : Memory) : (s.flipTo m).physBase = s.physBase := rfl
@[simp] theorem flipTo_palSrc (s : State) (m : Memory) : (s.flipTo m).palSrc = s.palSrc := rfl
@[simp] theorem flipTo_gamma (s : State) (m : Memory) : (s.flipTo m).gamma = s.gamma := rfl
@[simp] theorem flipTo_frameCount (s : State) (m : Memory) : (s.flipTo m).frameCount = s.frameCount + 1 := rfl
@[simp] theorem flipTo_nearest (s : State) (m : Memory) : (s.flipTo m).nearest = s.nearest := rfl
@[simp] theorem flipTo_active (s : State) (m : Memory) : (s.flipTo m).active = !s.active := rfl
@[simp] theorem flipTo_initFlag (s : State) (m : Memory) : (s.flipTo m).initFlag = s.initFlag := rfl
@[simp] theorem flipTo_statDue (s : State) (m : Memory) :
    (s.flipTo m).statDue = statDueAfter s.statDue (s.frameCount + 1) := rfl
@[simp] theorem flipTo_err (s : State) (m : Memory) : (s.flipTo m).err = s.err := rfl
@[simp] theorem flipTo_pending (s : State) (m : Memory) : (s.flipTo m).pending = none := rfl
@[simp] theorem flipTo_geom (s : State) (m : Memory) : (s.flipTo m).geom = s.geom := rfl
@[simp] theorem flipTo_ct (s : State) (m : Memory) : (s.flipTo m).ct = s.ct := rfl
@[simp] theorem flipTo_p565 (s : State) (m : Memory) : (s.flipTo m).p565 = s.p565 := rfl
@[simp] theorem flipTo_stageCt (s : State) (m : Memory) : (s.flipTo m).stageCt = s.stageCt := rfl
@[simp] theorem flipTo_stageP565 (s : State) (m : Memory) : (s.flipTo m).stageP565 = s.stageP565 := rfl
@[simp] theorem flipTo_mem (s : State) (m : Memory) : (s.flipTo m).mem = m := rfl
@[simp] theorem flipTo_flip (s : State) (m : Memory) : (s.flipTo m).flip = true := rfl
@[simp] theorem flipTo_resp (s : State) (m : Memory) : (s.flipTo m).resp = s.resp := rfl
@[simp] theorem flipTo_inflight (s : State) (m : Memory) : (s.flipTo m).inflight = s.inflight := rfl
@[simp] theorem flipTo_bus (s : State) (m : Memory) : (s.flipTo m).bus = s.bus := rfl
@[simp] theorem flipTo_inbox (s : State) (m : Memory) : (s.flipTo m).inbox = s.inbox := rfl
@[simp] theorem flipTo_fresh (s : State) (m : Memory) : (s.flipTo m).fresh = s.fresh + 1 := rfl

/-! ### agentWrites -/

@[simp] theorem agentWrites_width (s : State) (a : Nat) (v : Byte) : (s.agentWrites a v).width = s.width := rfl
@[simp] theorem agentWrites_height (s : State) (a : Nat) (v : Byte) : (s.agentWrites a v).height = s.height := rfl
@[simp] theorem agentWrites_logBase (s : State) (a : Nat) (v : Byte) : (s.agentWrites a v).logBase = s.logBase := rfl
@[simp] theorem agentWrites_physBase (s : State) (a : Nat) (v : Byte) : (s.agentWrites a v).physBase = s.physBase := rfl
@[simp] theorem agentWrites_palSrc (s : State) (a : Nat) (v : Byte) : (s.agentWrites a v).palSrc = s.palSrc := rfl
@[simp] theorem agentWrites_gamma (s : State) (a : Nat) (v : Byte) : (s.agentWrites a v).gamma = s.gamma := rfl
@[simp] theorem agentWrites_frameCount (s : State) (a : Nat) (v : Byte) :
    (s.agentWrites a v).frameCount = s.frameCount := rfl
@[simp] theorem agentWrites_nearest (s : State) (a : Nat) (v : Byte) : (s.agentWrites a v).nearest = s.nearest := rfl
@[simp] theorem agentWrites_active (s : State) (a : Nat) (v : Byte) : (s.agentWrites a v).active = s.active := rfl
@[simp] theorem agentWrites_initFlag (s : State) (a : Nat) (v : Byte) : (s.agentWrites a v).initFlag = s.initFlag := rfl
@[simp] theorem agentWrites_statDue (s : State) (a : Nat) (v : Byte) : (s.agentWrites a v).statDue = s.statDue := rfl
@[simp] theorem agentWrites_err (s : State) (a : Nat) (v : Byte) : (s.agentWrites a v).err = s.err := rfl
@[simp] theorem agentWrites_pending (s : State) (a : Nat) (v : Byte) :
    (s.agentWrites a v).pending = s.pending.map fun p => { p with raced := a :: p.raced } := rfl
@[simp] theorem agentWrites_geom (s : State) (a : Nat) (v : Byte) : (s.agentWrites a v).geom = s.geom := rfl
@[simp] theorem agentWrites_ct (s : State) (a : Nat) (v : Byte) : (s.agentWrites a v).ct = s.ct := rfl
@[simp] theorem agentWrites_p565 (s : State) (a : Nat) (v : Byte) : (s.agentWrites a v).p565 = s.p565 := rfl
@[simp] theorem agentWrites_stageCt (s : State) (a : Nat) (v : Byte) : (s.agentWrites a v).stageCt = s.stageCt := rfl
@[simp] theorem agentWrites_stageP565 (s : State) (a : Nat) (v : Byte) :
    (s.agentWrites a v).stageP565 = s.stageP565 := rfl
@[simp] theorem agentWrites_mem (s : State) (a : Nat) (v : Byte) : (s.agentWrites a v).mem = s.mem.write a v := rfl
@[simp] theorem agentWrites_flip (s : State) (a : Nat) (v : Byte) : (s.agentWrites a v).flip = s.flip := rfl
@[simp] theorem agentWrites_resp (s : State) (a : Nat) (v : Byte) : (s.agentWrites a v).resp = s.resp := rfl
@[simp] theorem agentWrites_inflight (s : State) (a : Nat) (v : Byte) : (s.agentWrites a v).inflight = s.inflight := rfl
@[simp] theorem agentWrites_bus (s : State) (a : Nat) (v : Byte) : (s.agentWrites a v).bus = s.bus := rfl
@[simp] theorem agentWrites_inbox (s : State) (a : Nat) (v : Byte) : (s.agentWrites a v).inbox = s.inbox := rfl
@[simp] theorem agentWrites_fresh (s : State) (a : Nat) (v : Byte) : (s.agentWrites a v).fresh = s.fresh := rfl

/-! ### setMem -/

@[simp] theorem setMem_width (s : State) (m : Memory) : (s.setMem m).width = s.width := rfl
@[simp] theorem setMem_height (s : State) (m : Memory) : (s.setMem m).height = s.height := rfl
@[simp] theorem setMem_logBase (s : State) (m : Memory) : (s.setMem m).logBase = s.logBase := rfl
@[simp] theorem setMem_physBase (s : State) (m : Memory) : (s.setMem m).physBase = s.physBase := rfl
@[simp] theorem setMem_palSrc (s : State) (m : Memory) : (s.setMem m).palSrc = s.palSrc := rfl
@[simp] theorem setMem_gamma (s : State) (m : Memory) : (s.setMem m).gamma = s.gamma := rfl
@[simp] theorem setMem_frameCount (s : State) (m : Memory) : (s.setMem m).frameCount = s.frameCount := rfl
@[simp] theorem setMem_nearest (s : State) (m : Memory) : (s.setMem m).nearest = s.nearest := rfl
@[simp] theorem setMem_active (s : State) (m : Memory) : (s.setMem m).active = s.active := rfl
@[simp] theorem setMem_initFlag (s : State) (m : Memory) : (s.setMem m).initFlag = s.initFlag := rfl
@[simp] theorem setMem_statDue (s : State) (m : Memory) : (s.setMem m).statDue = s.statDue := rfl
@[simp] theorem setMem_err (s : State) (m : Memory) : (s.setMem m).err = s.err := rfl
@[simp] theorem setMem_pending (s : State) (m : Memory) : (s.setMem m).pending = s.pending := rfl
@[simp] theorem setMem_geom (s : State) (m : Memory) : (s.setMem m).geom = s.geom := rfl
@[simp] theorem setMem_ct (s : State) (m : Memory) : (s.setMem m).ct = s.ct := rfl
@[simp] theorem setMem_p565 (s : State) (m : Memory) : (s.setMem m).p565 = s.p565 := rfl
@[simp] theorem setMem_stageCt (s : State) (m : Memory) : (s.setMem m).stageCt = s.stageCt := rfl
@[simp] theorem setMem_stageP565 (s : State) (m : Memory) : (s.setMem m).stageP565 = s.stageP565 := rfl
@[simp] theorem setMem_mem (s : State) (m : Memory) : (s.setMem m).mem = m := rfl
@[simp] theorem setMem_flip (s : State) (m : Memory) : (s.setMem m).flip = s.flip := rfl
@[simp] theorem setMem_resp (s : State) (m : Memory) : (s.setMem m).resp = s.resp := rfl
@[simp] theorem setMem_inflight (s : State) (m : Memory) : (s.setMem m).inflight = s.inflight := rfl
@[simp] theorem setMem_bus (s : State) (m : Memory) : (s.setMem m).bus = s.bus := rfl
@[simp] theorem setMem_inbox (s : State) (m : Memory) : (s.setMem m).inbox = s.inbox := rfl
@[simp] theorem setMem_fresh (s : State) (m : Memory) : (s.setMem m).fresh = s.fresh := rfl

/-! ### draw -/

@[simp] theorem draw_width (s : State) : s.draw.width = s.width := rfl
@[simp] theorem draw_height (s : State) : s.draw.height = s.height := rfl
@[simp] theorem draw_logBase (s : State) : s.draw.logBase = s.logBase := rfl
@[simp] theorem draw_physBase (s : State) : s.draw.physBase = s.physBase := rfl
@[simp] theorem draw_palSrc (s : State) : s.draw.palSrc = s.palSrc := rfl
@[simp] theorem draw_gamma (s : State) : s.draw.gamma = s.gamma := rfl
@[simp] theorem draw_frameCount (s : State) : s.draw.frameCount = s.frameCount := rfl
@[simp] theorem draw_nearest (s : State) : s.draw.nearest = s.nearest := rfl
@[simp] theorem draw_active (s : State) : s.draw.active = s.active := rfl
@[simp] theorem draw_initFlag (s : State) : s.draw.initFlag = s.initFlag := rfl
@[simp] theorem draw_statDue (s : State) : s.draw.statDue = s.statDue := rfl
@[simp] theorem draw_err (s : State) : s.draw.err = s.err := rfl
@[simp] theorem draw_pending (s : State) : s.draw.pending = s.pending := rfl
@[simp] theorem draw_geom (s : State) : s.draw.geom = s.geom := rfl
@[simp] theorem draw_ct (s : State) : s.draw.ct = s.ct := rfl
@[simp] theorem draw_p565 (s : State) : s.draw.p565 = s.p565 := rfl
@[simp] theorem draw_stageCt (s : State) : s.draw.stageCt = s.stageCt := rfl
@[simp] theorem draw_stageP565 (s : State) : s.draw.stageP565 = s.stageP565 := rfl
@[simp] theorem draw_mem (s : State) : s.draw.mem = s.mem := rfl
@[simp] theorem draw_flip (s : State) : s.draw.flip = s.flip := rfl
@[simp] theorem draw_resp (s : State) : s.draw.resp = s.resp := rfl
@[simp] theorem draw_inflight (s : State) : s.draw.inflight = s.inflight := rfl
@[simp] theorem draw_bus (s : State) : s.draw.bus = s.bus := rfl
@[simp] theorem draw_inbox (s : State) : s.draw.inbox = s.inbox := rfl
@[simp] theorem draw_fresh (s : State) : s.draw.fresh = s.fresh + 1 := rfl

/-! ### commitTables -/

@[simp] theorem commitTables_width (s : State) : s.commitTables.width = s.width := rfl
@[simp] theorem commitTables_height (s : State) : s.commitTables.height = s.height := rfl
@[simp] theorem commitTables_logBase (s : State) : s.commitTables.logBase = s.logBase := rfl
@[simp] theorem commitTables_physBase (s : State) : s.commitTables.physBase = s.physBase := rfl
@[simp] theorem commitTables_palSrc (s : State) : s.commitTables.palSrc = s.palSrc := rfl
@[simp] theorem commitTables_gamma (s : State) : s.commitTables.gamma = s.gamma := rfl
@[simp] theorem commitTables_frameCount (s : State) : s.commitTables.frameCount = s.frameCount := rfl
@[simp] theorem commitTables_nearest (s : State) : s.commitTables.nearest = s.nearest := rfl
@[simp] theorem commitTables_active (s : State) : s.commitTables.active = s.active := rfl
@[simp] theorem commitTables_initFlag (s : State) : s.commitTables.initFlag = s.initFlag := rfl
@[simp] theorem commitTables_statDue (s : State) : s.commitTables.statDue = s.statDue := rfl
@[simp] theorem commitTables_err (s : State) : s.commitTables.err = s.err := rfl
@[simp] theorem commitTables_pending (s : State) : s.commitTables.pending = s.pending := rfl
@[simp] theorem commitTables_geom (s : State) : s.commitTables.geom = s.geom := rfl
@[simp] theorem commitTables_ct (s : State) : s.commitTables.ct = s.stageCt := rfl
@[simp] theorem commitTables_p565 (s : State) : s.commitTables.p565 = s.stageP565 := rfl
@[simp] theorem commitTables_stageCt (s : State) : s.commitTables.stageCt = s.stageCt := rfl
@[simp] theorem commitTables_stageP565 (s : State) : s.commitTables.stageP565 = s.stageP565 := rfl
@[simp] theorem commitTables_mem (s : State) : s.commitTables.mem = s.mem := rfl
@[simp] theorem commitTables_flip (s : State) : s.commitTables.flip = s.flip := rfl
@[simp] theorem commitTables_resp (s : State) : s.commitTables.resp = s.resp := rfl
@[simp] theorem commitTables_inflight (s : State) : s.commitTables.inflight = s.inflight := rfl
@[simp] theorem commitTables_bus (s : State) : s.commitTables.bus = s.bus := rfl
@[simp] theorem commitTables_inbox (s : State) : s.commitTables.inbox = s.inbox := rfl
@[simp] theorem commitTables_fresh (s : State) : s.commitTables.fresh = s.fresh := rfl

/-! ### stageTables -/

@[simp] theorem stageTables_width (s : State) : s.stageTables.width = s.width := rfl
@[simp] theorem stageTables_height (s : State) : s.stageTables.height = s.height := rfl
@[simp] theorem stageTables_logBase (s : State) : s.stageTables.logBase = s.logBase := rfl
@[simp] theorem stageTables_physBase (s : State) : s.stageTables.physBase = s.physBase := rfl
@[simp] theorem stageTables_palSrc (s : State) : s.stageTables.palSrc = s.palSrc := rfl
@[simp] theorem stageTables_gamma (s : State) : s.stageTables.gamma = s.gamma := rfl
@[simp] theorem stageTables_frameCount (s : State) : s.stageTables.frameCount = s.frameCount := rfl
@[simp] theorem stageTables_nearest (s : State) : s.stageTables.nearest = s.nearest := rfl
@[simp] theorem stageTables_active (s : State) : s.stageTables.active = s.active := rfl
@[simp] theorem stageTables_initFlag (s : State) : s.stageTables.initFlag = s.initFlag := rfl
@[simp] theorem stageTables_statDue (s : State) : s.stageTables.statDue = s.statDue := rfl
@[simp] theorem stageTables_err (s : State) : s.stageTables.err = s.err := rfl
@[simp] theorem stageTables_pending (s : State) : s.stageTables.pending = s.pending := rfl
@[simp] theorem stageTables_geom (s : State) : s.stageTables.geom = s.geom := rfl
@[simp] theorem stageTables_ct (s : State) : s.stageTables.ct = s.ct := rfl
@[simp] theorem stageTables_p565 (s : State) : s.stageTables.p565 = s.p565 := rfl
@[simp] theorem stageTables_stageCt (s : State) : s.stageTables.stageCt = Table.of s.stagedColor := rfl
@[simp] theorem stageTables_stageP565 (s : State) : s.stageTables.stageP565 = Table.of s.staged565 := rfl
@[simp] theorem stageTables_mem (s : State) : s.stageTables.mem = s.mem := rfl
@[simp] theorem stageTables_flip (s : State) : s.stageTables.flip = s.flip := rfl
@[simp] theorem stageTables_resp (s : State) : s.stageTables.resp = s.resp := rfl
@[simp] theorem stageTables_inflight (s : State) : s.stageTables.inflight = s.inflight := rfl
@[simp] theorem stageTables_bus (s : State) : s.stageTables.bus = s.bus := rfl
@[simp] theorem stageTables_inbox (s : State) : s.stageTables.inbox = s.inbox := rfl
@[simp] theorem stageTables_fresh (s : State) : s.stageTables.fresh = s.fresh := rfl

/-! ### stageUnknown -/

@[simp] theorem stageUnknown_width (s : State) : s.stageUnknown.width = s.width := rfl
@[simp] theorem stageUnknown_height (s : State) : s.stageUnknown.height = s.height := rfl
@[simp] theorem stageUnknown_logBase (s : State) : s.stageUnknown.logBase = s.logBase := rfl
@[simp] theorem stageUnknown_physBase (s : State) : s.stageUnknown.physBase = s.physBase := rfl
@[simp] theorem stageUnknown_palSrc (s : State) : s.stageUnknown.palSrc = s.palSrc := rfl
@[simp] theorem stageUnknown_gamma (s : State) : s.stageUnknown.gamma = s.gamma := rfl
@[simp] theorem stageUnknown_frameCount (s : State) : s.stageUnknown.frameCount = s.frameCount := rfl
@[simp] theorem stageUnknown_nearest (s : State) : s.stageUnknown.nearest = s.nearest := rfl
@[simp] theorem stageUnknown_active (s : State) : s.stageUnknown.active = s.active := rfl
@[simp] theorem stageUnknown_initFlag (s : State) : s.stageUnknown.initFlag = s.initFlag := rfl
@[simp] theorem stageUnknown_statDue (s : State) : s.stageUnknown.statDue = s.statDue := rfl
@[simp] theorem stageUnknown_err (s : State) : s.stageUnknown.err = s.err := rfl
@[simp] theorem stageUnknown_pending (s : State) : s.stageUnknown.pending = s.pending := rfl
@[simp] theorem stageUnknown_geom (s : State) : s.stageUnknown.geom = s.geom := rfl
@[simp] theorem stageUnknown_ct (s : State) : s.stageUnknown.ct = s.ct := rfl
@[simp] theorem stageUnknown_p565 (s : State) : s.stageUnknown.p565 = s.p565 := rfl
@[simp] theorem stageUnknown_stageCt (s : State) :
    s.stageUnknown.stageCt = Table.of (fun i => Config.freeTexel s.fresh i.toNat) := rfl
@[simp] theorem stageUnknown_stageP565 (s : State) :
    s.stageUnknown.stageP565 = Table.of (fun i => Config.freeEntry565 s.fresh i.toNat) := rfl
@[simp] theorem stageUnknown_mem (s : State) : s.stageUnknown.mem = s.mem := rfl
@[simp] theorem stageUnknown_flip (s : State) : s.stageUnknown.flip = s.flip := rfl
@[simp] theorem stageUnknown_resp (s : State) : s.stageUnknown.resp = s.resp := rfl
@[simp] theorem stageUnknown_inflight (s : State) : s.stageUnknown.inflight = s.inflight := rfl
@[simp] theorem stageUnknown_bus (s : State) : s.stageUnknown.bus = s.bus := rfl
@[simp] theorem stageUnknown_inbox (s : State) : s.stageUnknown.inbox = s.inbox := rfl
@[simp] theorem stageUnknown_fresh (s : State) : s.stageUnknown.fresh = s.fresh := rfl

/-! ### resetInput -/

@[simp] theorem resetInput_width (s : State) : s.resetInput.width = 0 := rfl
@[simp] theorem resetInput_height (s : State) : s.resetInput.height = 0 := rfl
@[simp] theorem resetInput_logBase (s : State) : s.resetInput.logBase = 0 := rfl
@[simp] theorem resetInput_physBase (s : State) : s.resetInput.physBase = 0 := rfl
@[simp] theorem resetInput_palSrc (s : State) : s.resetInput.palSrc = 0 := rfl
@[simp] theorem resetInput_gamma (s : State) : s.resetInput.gamma = 0 := rfl
@[simp] theorem resetInput_frameCount (s : State) : s.resetInput.frameCount = 0 := rfl
@[simp] theorem resetInput_nearest (s : State) : s.resetInput.nearest = 0 := rfl
@[simp] theorem resetInput_active (s : State) : s.resetInput.active = false := rfl
@[simp] theorem resetInput_initFlag (s : State) : s.resetInput.initFlag = false := rfl
@[simp] theorem resetInput_statDue (s : State) : s.resetInput.statDue = false := rfl
@[simp] theorem resetInput_err (s : State) : s.resetInput.err = .noError := rfl
@[simp] theorem resetInput_pending (s : State) : s.resetInput.pending = none := rfl
@[simp] theorem resetInput_geom (s : State) : s.resetInput.geom = Geometry.reset := rfl
@[simp] theorem resetInput_ct (s : State) : s.resetInput.ct = Table.zero 32 := rfl
@[simp] theorem resetInput_p565 (s : State) : s.resetInput.p565 = Table.zero 16 := rfl
@[simp] theorem resetInput_stageCt (s : State) : s.resetInput.stageCt = Table.zero 32 := rfl
@[simp] theorem resetInput_stageP565 (s : State) : s.resetInput.stageP565 = Table.zero 16 := rfl
@[simp] theorem resetInput_mem (s : State) :
    s.resetInput.mem = if s.presentTarget.isSome then s.scrambled else s.mem := rfl
@[simp] theorem resetInput_flip (s : State) : s.resetInput.flip = false := rfl
@[simp] theorem resetInput_resp (s : State) : s.resetInput.resp = .none := rfl
@[simp] theorem resetInput_inflight (s : State) : s.resetInput.inflight = s.presentTarget.toList ++ s.inflight := rfl
@[simp] theorem resetInput_bus (s : State) : s.resetInput.bus = s.bus := rfl
@[simp] theorem resetInput_inbox (s : State) : s.resetInput.inbox = s.inbox := rfl
@[simp] theorem resetInput_fresh (s : State) : s.resetInput.fresh = s.fresh + 1 := rfl

end Sys2Proof.Machine.State
end

