-- ==== Sys2Proof/Laws/Ops.lean ====
section
/-! SUPPORT. Laws of the shared operations: spans, the memory port, tables, acceptance, geometry and halves of 64-bit
registers. -/

namespace Sys2Proof.Machine

/-! ### Spans and the memory port -/

theorem Span.contains_iff (r : Span) (a : Nat) : r.contains a = true ↔ r.lo ≤ a ∧ a < r.lo + r.len := by
  simp [Span.contains]

/-- Two spans overlap exactly where they share an address. -/
theorem Span.overlaps_iff (r q : Span) :
    r.overlaps q = true ↔ ∃ a, r.contains a = true ∧ q.contains a = true := by
  simp only [Span.overlaps, decide_eq_true_eq, Span.contains_iff]
  constructor
  · intro h
    exact ⟨max r.lo q.lo, by omega⟩
  · rintro ⟨a, h1, h2⟩
    omega

theorem State.meets_iff (s : State) (spans : List Span) (kind : BusKind) :
    s.meets spans kind = true ↔ ∃ r ∈ s.bus, r.kind = kind ∧ ∃ q ∈ spans, r.span.overlaps q = true := by
  simp [State.meets]

theorem State.meets_eq_false (s : State) (spans : List Span) (kind : BusKind)
    (h : ∀ q ∈ spans, s.ClearOf kind q) : s.meets spans kind = false := by
  rw [Bool.eq_false_iff]
  intro hm
  obtain ⟨r, hr, hk, q, hq, ho⟩ := (s.meets_iff spans kind).1 hm
  rw [h q hq r hr hk] at ho
  exact Bool.noConfusion ho

theorem State.meets_of_hits {s : State} {spans : List Span} {kind : BusKind} {q : Span} (hq : q ∈ spans)
    (h : s.Hits kind q) : s.meets spans kind = true := by
  obtain ⟨r, hr, hk, ho⟩ := h
  exact (s.meets_iff spans kind).2 ⟨r, hr, hk, q, hq, ho⟩

theorem State.Clear.clearOf {s : State} {q : Span} (h : s.Clear q) (kind : BusKind) : s.ClearOf kind q :=
  fun r hr _ => h r hr

/-- Where no bus region touches the spans, every access gets its data. -/
theorem State.portResult_clear {s : State} {spans : List Span} (h : ∀ q ∈ spans, s.Clear q) :
    s.portResult spans = .ok := by
  have hk := fun kind => s.meets_eq_false spans kind fun q hq => (h q hq).clearOf kind
  simp [State.portResult, hk]

/-- Where an error region is touched and no silent or device region, the accesses meet an error. -/
theorem State.portResult_error {s : State} {spans : List Span} (hd : ∀ q ∈ spans, s.ClearOf .device q)
    (hs : ∀ q ∈ spans, s.ClearOf .silent q) (he : ∃ q ∈ spans, s.Hits .error q) : s.portResult spans = .error := by
  obtain ⟨q, hq, h⟩ := he
  simp [State.portResult, s.meets_eq_false spans .device hd, s.meets_eq_false spans .silent hs,
    State.meets_of_hits hq h]

/-- Where a silent region is touched and no error or device region, no response comes. -/
theorem State.portResult_noResponse {s : State} {spans : List Span} (hd : ∀ q ∈ spans, s.ClearOf .device q)
    (he : ∀ q ∈ spans, s.ClearOf .error q) (hs : ∃ q ∈ spans, s.Hits .silent q) :
    s.portResult spans = .noResponse := by
  obtain ⟨q, hq, h⟩ := hs
  simp [State.portResult, s.meets_eq_false spans .device hd, s.meets_eq_false spans .error he,
    State.meets_of_hits hq h]

/-- Where a device region is touched, the command steps outside the spec (R68). -/
theorem State.portResult_device {s : State} {spans : List Span} (hd : ∃ q ∈ spans, s.Hits .device q) :
    s.portResult spans = .device := by
  obtain ⟨q, hq, h⟩ := hd
  simp [State.portResult, State.meets_of_hits hq h]

/-- The accesses reach device memory exactly where a device region is touched (R68). -/
theorem State.portResult_device_iff {s : State} {spans : List Span} :
    s.portResult spans = .device ↔ ∃ q ∈ spans, s.Hits .device q := by
  refine ⟨fun h => ?_, State.portResult_device⟩
  cases hm : s.meets spans .device
  · rw [State.portResult, hm] at h
    repeat' split at h
    all_goals contradiction
  · obtain ⟨r, hr, hk, q, hq, ho⟩ := (s.meets_iff spans .device).1 hm
    exact ⟨q, hq, r, hr, hk, ho⟩

/-- Where every bus region answers with an error, accesses meet data or an error. -/
theorem State.portResult_answers {s : State} (spans : List Span) (h : ∀ r ∈ s.bus, r.kind = .error) :
    s.portResult spans = .ok ∨ s.portResult spans = .error := by
  have hn : ∀ kind, kind ≠ .error → s.meets spans kind = false := fun kind hk =>
    s.meets_eq_false spans kind fun q _ r hr hrk => absurd (hrk.symm.trans (h r hr)) hk
  simp only [State.portResult, hn .device (by decide), hn .silent (by decide)]
  cases s.meets spans .error <;> simp

/-- Where no bus region is device memory, no access reaches device memory. -/
theorem State.portResult_ne_device {s : State} (spans : List Span) (h : ∀ r ∈ s.bus, r.kind ≠ .device) :
    s.portResult spans ≠ .device := fun hp =>
  let ⟨_, _, r, hr, hk, _⟩ := State.portResult_device_iff.1 hp
  h r hr hk

/-! ### Tables -/

@[simp] theorem Table.get_of {w : Nat} (f : Byte → BitVec w) (i : Byte) : (Table.of f).get i = f i := by
  simp [Table.get, Table.of]

@[simp] theorem Table.get_zero {w : Nat} (i : Byte) : (Table.zero w).get i = 0 := by
  simp [Table.get, Table.zero]

theorem Table.ext_get {w : Nat} {t u : Table w} (h : ∀ i, t.get i = u.get i) : t = u := by
  apply Vector.ext
  intro i hi
  have := h (BitVec.ofNat 8 i)
  have hm : i % 256 = i := Nat.mod_eq_of_lt hi
  simpa [Table.get, hm] using this

/-! ### Acceptance -/

theorem State.busy_iff (s : State) : s.busy = true ↔ s.pending ≠ none := by
  cases h : s.pending <;> simp [State.busy, h]

theorem State.accept_idle {s : State} (h : s.pending = none) (op : PendingOp) :
    s.accept op = { s with pending := some { op := op, raced := [] } } := by
  simp [State.accept, State.busy, h]

theorem State.accept_busy {s : State} (h : s.pending ≠ none) (op : PendingOp) :
    s.accept op = s.recordErr .ebusy := by
  rw [State.accept, if_pos ((s.busy_iff).2 h)]

/-! ### Taking an event leaves what commands compute with -/

@[simp] theorem State.busy_takeEvent (s : State) : s.takeEvent.busy = s.busy := rfl
@[simp] theorem State.busy_draw (s : State) : s.draw.busy = s.busy := rfl
@[simp] theorem State.busy_agentWrites (s : State) (a : Nat) (v : Byte) : (s.agentWrites a v).busy = s.busy := by
  cases h : s.pending <;> simp [State.busy, h]

@[simp] theorem State.raced_takeEvent (s : State) : s.takeEvent.raced = s.raced := rfl
@[simp] theorem State.statusWord_takeEvent (s : State) : s.takeEvent.statusWord = s.statusWord := rfl
@[simp] theorem State.initOperands_takeEvent (s : State) : s.takeEvent.initOperands = s.initOperands := rfl
@[simp] theorem State.paletteSource_takeEvent (s : State) : s.takeEvent.paletteSource = s.paletteSource := rfl
@[simp] theorem State.paletteSpan_takeEvent (s : State) : s.takeEvent.paletteSpan = s.paletteSpan := rfl
@[simp] theorem State.sourceSpan_takeEvent (s : State) : s.takeEvent.sourceSpan = s.sourceSpan := rfl
@[simp] theorem State.targetSpan_takeEvent (s : State) : s.takeEvent.targetSpan = s.targetSpan := rfl
@[simp] theorem State.inactiveBase_takeEvent (s : State) : s.takeEvent.inactiveBase = s.inactiveBase := rfl
@[simp] theorem State.presentTarget_takeEvent (s : State) : s.takeEvent.presentTarget = s.presentTarget := rfl
@[simp] theorem State.presenting_takeEvent (s : State) : s.takeEvent.presenting = s.presenting := rfl
@[simp] theorem State.inactiveSpan_takeEvent (s : State) : s.takeEvent.inactiveSpan = s.inactiveSpan := rfl
@[simp] theorem State.scrambled_takeEvent (s : State) : s.takeEvent.scrambled = s.scrambled := rfl
@[simp] theorem State.presented_takeEvent (s : State) : s.takeEvent.presented = s.presented := rfl
@[simp] theorem State.spoiled_takeEvent (s : State) : s.takeEvent.spoiled = s.spoiled := rfl
@[simp] theorem State.presentPort_takeEvent (s : State) : s.takeEvent.presentPort = s.presentPort := rfl
@[simp] theorem State.palettePort_takeEvent (s : State) : s.takeEvent.palettePort = s.palettePort := rfl

/-! ### The target of PRESENT -/

/-- A PRESENT with a geometry is pending (R151). -/
theorem State.presenting_iff (s : State) :
    s.presenting = true ↔ s.initFlag = true ∧ ∃ raced, s.pending = some { op := .present, raced := raced } := by
  unfold State.presenting
  split
  · rename_i raced hp
    simp [hp]
  · rename_i hp
    simp only [Bool.false_eq_true, false_iff, not_and, not_exists]
    exact fun _ raced h => hp raced h

/-- Read after the target bytes took free values (R162, R261). -/
theorem State.read_scrambled {s : State} (hm : s.mem.wf) (a : Nat) :
    s.scrambled.read a =
      if s.targetSpan.contains a = true ∧ a < 2 ^ 64 then Config.freeByte s.fresh (a - s.inactiveBase)
      else s.mem.read a := by
  rw [State.scrambled, Memory.read_fill hm]
  simp only [Span.contains_iff, State.targetSpan, and_assoc]

/-! ### Geometry -/

/-- Everything INIT latches is legal and is what it was given (R125, R127, R128, R129). -/
theorem geometryOf_ok {o : InitOperands} {g : Geometry} (h : geometryOf o = .ok g) :
    g.Legal ∧ g.w = o.w ∧ g.h = o.h ∧ g.log = o.lb ∧ g.phys = o.pb := by
  unfold geometryOf at h
  simp only [Config.bytesPerTexel, Config.blockPixels, Config.maxHalfSize, Config.physAlign,
    Config.addressSpace] at h
  split at h
  · cases h
  rename_i h1
  split at h
  · cases h
  rename_i h2
  split at h
  · cases h
  rename_i h3
  split at h
  · cases h
  rename_i h4
  split at h
  · cases h
  rename_i h5
  split at h
  · cases h
  rename_i h6
  cases h
  have hw : 0 < o.w.toNat := by
    rcases Nat.eq_zero_or_pos o.w.toNat with h0 | h0
    · exact absurd (Or.inl (BitVec.eq_of_toNat_eq (by simpa using h0))) h1
    · exact h0
  have hh : 0 < o.h.toNat := by
    rcases Nat.eq_zero_or_pos o.h.toNat with h0 | h0
    · exact absurd (Or.inr (BitVec.eq_of_toNat_eq (by simpa using h0))) h1
    · exact h0
  refine ⟨⟨rfl, Nat.mul_pos hw hh, ?_, ?_, rfl, ?_, ?_, ?_, ?_⟩, rfl, rfl, rfl, rfl⟩ <;> simp only <;> omega

end Sys2Proof.Machine
end

