-- ==== Sys2Proof/Laws/Palette.lean ====
section
/-! SUPPORT. Laws of the palette commands: packed colors, staged entries, and the search loop of NEAREST. -/

namespace Sys2Proof.Machine

/-! ### Packed colors -/

theorem packColor_eq (r g b : Byte) : packColor r g b = shiftedColor r g b := by
  unfold packColor shiftedColor
  apply BitVec.eq_of_getLsbD_eq
  intro i hi
  simp only [BitVec.getLsbD_or, BitVec.getLsbD_shiftLeft, BitVec.getLsbD_setWidth, BitVec.getLsbD_append]
  interval_cases i <;> simp

theorem pack565_eq (r g b : Byte) : pack565 r g b = shifted565 r g b := by
  unfold pack565 shifted565
  apply BitVec.eq_of_getLsbD_eq
  intro i hi
  simp only [BitVec.getLsbD_or, BitVec.getLsbD_shiftLeft, BitVec.getLsbD_setWidth, BitVec.getLsbD_append,
    BitVec.getLsbD_ushiftRight, BitVec.getLsbD_extractLsb']
  interval_cases i <;> simp

/-- The alpha byte of a packed color is 0 (R38). -/
theorem packColor_alpha (r g b : Byte) : (packColor r g b).extractLsb' 24 8 = 0 := (word_of_bytes 0#8 r g b).2.2.2

/-- The alpha byte of every staged entry is 0, raced or not (R38, R76). -/
theorem State.stagedColor_alpha (s : State) (i : Byte) : (s.stagedColor i).extractLsb' 24 8 = 0 := by
  unfold State.stagedColor
  split
  · apply BitVec.eq_of_getLsbD_eq
    intro j _
    simp only [BitVec.getLsbD_extractLsb', BitVec.getLsbD_append]
    simp
  · exact packColor_alpha _ _ _

/-! ### The palette buffer -/

/-- What a pending SET_PALETTE works on (R32). -/
theorem State.palette_of_pending {s : State} {ps : DWord} {raced : List Nat}
    (h : s.pending = some { op := .setPalette ps, raced := raced }) :
    s.paletteSource = ps.toNat ∧ s.raced = raced ∧ s.paletteSpan = { lo := ps.toNat, len := 768 } := by
  simp [State.paletteSource, State.raced, State.paletteSpan, h]

/-- A triple is raced where another agent wrote one of its three bytes (R76). -/
theorem State.tripleRaced_iff (s : State) (i : Byte) :
    s.tripleRaced i = true ↔ ∃ c, c < 3 ∧ s.paletteSource + 3 * i.toNat + c ∈ s.raced := by
  simp only [State.tripleRaced, List.any_eq_true, List.contains_eq_mem, decide_eq_true_eq]
  constructor
  · rintro ⟨c, hc, h⟩
    refine ⟨c, ?_, h⟩
    simp only [List.mem_cons, List.not_mem_nil, or_false] at hc
    omega
  · rintro ⟨c, hc, h⟩
    refine ⟨c, ?_, h⟩
    simp only [List.mem_cons, List.not_mem_nil, or_false]
    omega

/-! ### The search loop of NEAREST (R189) -/

/-- What the loop answers: the best index it was given, where no entry is nearer, or the first index of the minimum of
the entries it was given. -/
theorem nearestFrom_spec (r g b : Byte) (ps : List Half) (i best bestD : Nat) :
    (nearestFrom r g b ps i best bestD = best ∧
      ∀ p ∈ ps, bestD ≤ colorDistance r g b p ∧ 0 < colorDistance r g b p) ∨
    ∃ (j : Nat) (_ : j < ps.length), nearestFrom r g b ps i best bestD = i + j ∧
      (colorDistance r g b ps[j] < bestD ∨ colorDistance r g b ps[j] = 0) ∧
      (∀ k (_ : k < ps.length), colorDistance r g b ps[j] ≤ colorDistance r g b ps[k]) ∧
      ∀ k (_ : k < j), colorDistance r g b ps[j] < colorDistance r g b ps[k] := by
  induction ps generalizing i best bestD with
  | nil => simp [nearestFrom]
  | cons p ps ih =>
    simp only [nearestFrom]
    by_cases h0 : colorDistance r g b p = 0
    · rw [if_pos h0]
      refine .inr ⟨0, by simp, rfl, .inr h0, fun k _ => ?_, fun k hk => absurd hk (by omega)⟩
      simp [h0]
    rw [if_neg h0]
    by_cases hd : colorDistance r g b p < bestD
    · rw [if_pos hd]
      rcases ih (i + 1) i (colorDistance r g b p) with ⟨h1, h2⟩ | ⟨j, hj, h1, h2, h3, h4⟩
      · refine .inr ⟨0, by simp, by simpa using h1, .inl hd, fun k hk => ?_, fun k hk => absurd hk (by omega)⟩
        cases k with
        | zero => simp
        | succ k => simpa using (h2 _ (List.getElem_mem _)).1
      · refine .inr ⟨j + 1, by simpa using hj, by omega, ?_, fun k hk => ?_, fun k hk => ?_⟩
        · simp only [List.getElem_cons_succ]; omega
        · cases k with
          | zero => simp only [List.getElem_cons_succ, List.getElem_cons_zero]; omega
          | succ k => simpa using h3 k (by simpa using hk)
        · cases k with
          | zero => simp only [List.getElem_cons_succ, List.getElem_cons_zero]; omega
          | succ k => simpa using h4 k (by omega)
    · rw [if_neg hd]
      rcases ih (i + 1) best bestD with ⟨h1, h2⟩ | ⟨j, hj, h1, h2, h3, h4⟩
      · refine .inl ⟨h1, fun q hq => ?_⟩
        rcases List.mem_cons.1 hq with rfl | hq
        · omega
        · exact h2 q hq
      · refine .inr ⟨j + 1, by simpa using hj, by omega, by simpa using h2, fun k hk => ?_, fun k hk => ?_⟩
        · cases k with
          | zero => simp only [List.getElem_cons_succ, List.getElem_cons_zero]; omega
          | succ k => simpa using h3 k (by simpa using hk)
        · cases k with
          | zero => simp only [List.getElem_cons_succ, List.getElem_cons_zero]; omega
          | succ k => simpa using h4 k (by omega)

end Sys2Proof.Machine
end

