-- ==== Sys2Proof/Laws/Step.lean ====
section
/-! SUPPORT. What each operation and each step can do, said once: inversion lemmas the claims are proved with. -/

namespace Sys2Proof.Machine

/-! ### Commands -/

/-- Everything a completing INIT can do (R125). -/
theorem execInit_cases {s t : State} (h : execInit s = .next t) :
    (∃ code, code ≠ .noError ∧ t = s.raiseErr code) ∨
      (s.initFlag = false ∧ ∃ g, geometryOf s.initOperands = .ok g ∧ t = s.latch g) := by
  unfold execInit at h
  split at h
  · cases h; exact .inl ⟨.estate, by decide, rfl⟩
  · rename_i hi
    split at h
    · rename_i code hc
      cases h
      refine .inl ⟨code, ?_, rfl⟩
      rintro rfl
      unfold geometryOf at hc
      simp only at hc
      repeat' split at hc
      all_goals cases hc
    · rename_i g hg
      cases h
      exact .inr ⟨by simpa using hi, g, hg, rfl⟩

/-- Everything a completing SHUTDOWN can do (R131). -/
theorem execShutdown_cases {s t : State} (h : execShutdown s = .next t) :
    t = s.raiseErr .estate ∨ (s.initFlag = true ∧ t = { s with initFlag := false }.complete) := by
  unfold execShutdown at h
  split at h <;> rename_i hi <;> cases h
  · exact .inr ⟨hi, rfl⟩
  · exact .inl rfl

/-- Everything a completing PRESENT can do (R150). -/
theorem execPresent_cases {s t : State} (h : execPresent s = .next t) :
    (s.initFlag = false ∧ t = s.raiseErr .estate) ∨
    (s.initFlag = true ∧ s.presentPort = .noResponse ∧ t = s) ∨
    (s.initFlag = true ∧ s.presentPort = .error ∧
      t = (s.setMem s.spoiled).draw.raiseErr .ebus) ∨
    (s.initFlag = true ∧ s.presentPort = .ok ∧ t = s.flipTo s.presented) := by
  unfold execPresent at h
  cases hi : s.initFlag <;> simp only [hi, Bool.not_true, Bool.not_false, if_true, if_false, Bool.false_eq_true] at h
  · cases h; exact .inl ⟨rfl, rfl⟩
  · split at h <;> rename_i hp <;> cases h
    · exact .inr (.inl ⟨rfl, hp, rfl⟩)
    · exact .inr (.inr (.inl ⟨rfl, hp, rfl⟩))
    · exact .inr (.inr (.inr ⟨rfl, hp, rfl⟩))

/-- Everything a completing SET_PALETTE can do (R181). -/
theorem execSetPalette_cases {s t : State} (h : execSetPalette s = .next t) :
    t = s.raiseErr .erange ∨ (s.palettePort = .noResponse ∧ t = s) ∨
    (s.palettePort = .error ∧ t = s.stageUnknown.draw.raiseErr .ebus) ∨
    (s.palettePort = .ok ∧ t = s.stageTables.commitTables.draw.complete) := by
  unfold execSetPalette at h
  split at h
  · cases h; exact .inl rfl
  · split at h <;> rename_i hp <;> cases h
    · exact .inr (.inl ⟨hp, rfl⟩)
    · exact .inr (.inr (.inl ⟨hp, rfl⟩))
    · exact .inr (.inr (.inr ⟨hp, rfl⟩))

/-- Everything a completing SET_GAMMA can do (R187). -/
theorem execSetGamma_cases {level : Byte} {s t : State} (h : execSetGamma level s = .next t) :
    t = s.raiseErr .egamma ∨ (level.toNat < Config.numGammaLevels ∧ t = { s with gamma := level }.complete) := by
  unfold execSetGamma at h
  split at h <;> rename_i hl <;> cases h
  · exact .inl rfl
  · exact .inr ⟨by omega, rfl⟩

/-- Everything the completion step of a command can do: wait, fail with an error, or its effect. -/
theorem completion_cases {s t : State} {p : Pending} (h : exec p.op.toInstr s = .next t) :
   t = s ∨ 
   (∃ code, code ≠ .noError ∧ t = s.raiseErr code) ∨
   ((∃ w h lb pb, p.op = .init w h lb pb) ∧ s.initFlag = false ∧ ∃ g, geometryOf s.initOperands = .ok g ∧ t = s.latch g) ∨
   (p.op = .shutdown ∧ s.initFlag = true ∧ t = { s with initFlag := false }.complete) ∨
   (p.op = .present ∧ s.initFlag = true ∧ s.presentPort = .error ∧ t = (s.setMem s.spoiled).draw.raiseErr .ebus) ∨
   (p.op = .present ∧ s.initFlag = true ∧ s.presentPort = .ok ∧ t = s.flipTo s.presented) ∨
   (∃ ps, p.op = .setPalette ps ∧ t = s.stageUnknown.draw.raiseErr .ebus) ∨
   (∃ ps, p.op = .setPalette ps ∧ t = s.stageTables.commitTables.draw.complete) ∨
   (∃ l, p.op = .setGamma l ∧ l.toNat < Config.numGammaLevels ∧ t = { s with gamma := l }.complete) ∨
   (∃ r g b, p.op = .nearest r g b ∧ t = { s with nearest := nearestIndex r g b s.p565 }.complete) := by
  obtain ⟨op, raced⟩ := p
  cases op with
  | init w h' lb pb =>
    rcases execInit_cases h with ⟨c, hc, rfl⟩ | ⟨h1, g, h2, h3⟩
    · exact .inr (.inl ⟨c, hc, rfl⟩)
    · exact .inr (.inr (.inl ⟨⟨_, _, _, _, rfl⟩, h1, g, h2, h3⟩))
  | shutdown =>
    rcases execShutdown_cases h with rfl | ⟨h1, h2⟩
    · exact .inr (.inl ⟨_, by decide, rfl⟩)
    · exact .inr (.inr (.inr (.inl ⟨rfl, h1, h2⟩)))
  | present =>
    rcases execPresent_cases h with ⟨-, rfl⟩ | ⟨-, -, rfl⟩ | ⟨h1, h2, h3⟩ | ⟨h1, h2, h3⟩
    · exact .inr (.inl ⟨_, by decide, rfl⟩)
    · exact .inl rfl
    · exact .inr (.inr (.inr (.inr (.inl ⟨rfl, h1, h2, h3⟩))))
    · exact .inr (.inr (.inr (.inr (.inr (.inl ⟨rfl, h1, h2, h3⟩)))))
  | setPalette ps =>
    rcases execSetPalette_cases h with rfl | ⟨-, rfl⟩ | ⟨h2, h3⟩ | ⟨h2, h3⟩
    · exact .inr (.inl ⟨_, by decide, rfl⟩)
    · exact .inl rfl
    · exact .inr (.inr (.inr (.inr (.inr (.inr (.inl ⟨_, rfl, h3⟩))))))
    · exact .inr (.inr (.inr (.inr (.inr (.inr (.inr (.inl ⟨_, rfl, h3⟩)))))))
  | setGamma l =>
    rcases execSetGamma_cases h with rfl | ⟨h1, h2⟩
    · exact .inr (.inl ⟨_, by decide, rfl⟩)
    · exact .inr (.inr (.inr (.inr (.inr (.inr (.inr (.inr (.inl ⟨_, rfl, h1, h2⟩))))))))
  | nearest r g b =>
    cases h
    exact .inr (.inr (.inr (.inr (.inr (.inr (.inr (.inr (.inr ⟨_, _, _, rfl, rfl⟩))))))))

/-- The codes of an INIT whose geometry is refused (R127, R128, R129). -/
theorem geometryOf_error {o : InitOperands} {code : ErrCode} (h : geometryOf o = .error code) :
    code ∈ [ErrCode.edim, .ealign, .erange] := by
  unfold geometryOf at h
  simp only at h
  repeat' split at h
  all_goals cases h <;> simp

/-- What a completion does to STATUS.ERR (R231, R234): it stays, or it was 0, the command ends and ERR takes a code of
that command. -/
theorem completion_err {s t : State} {p : Pending} (h : exec p.op.toInstr s = .next t) :
    t.err = s.err ∨ (s.err = .noError ∧ t.pending = none ∧ t.err ∈ p.op.raises) := by
  have raised : ∀ (u : State) code, u.err = s.err → code ∈ p.op.raises → t = u.raiseErr code →
      t.err = s.err ∨ (s.err = .noError ∧ t.pending = none ∧ t.err ∈ p.op.raises) := by
    rintro u code hu hc rfl
    by_cases he : s.err = .noError
    · exact .inr ⟨he, rfl, by simpa [hu, he] using hc⟩
    · exact .inl (by simp [hu, he])
  obtain ⟨op, raced⟩ := p
  cases op with
  | init w h' lb pb =>
    simp only [PendingOp.toInstr, exec, execInit] at h
    split at h
    · cases h; exact raised s .estate rfl (by simp [PendingOp.raises]) rfl
    · split at h
      · rename_i code hc
        cases h
        exact raised s code rfl (List.mem_cons_of_mem _ (geometryOf_error hc)) rfl
      · cases h; exact .inl rfl
  | shutdown =>
    rcases execShutdown_cases h with rfl | ⟨-, rfl⟩
    · exact raised s .estate rfl (by simp [PendingOp.raises]) rfl
    · exact .inl rfl
  | present =>
    rcases execPresent_cases h with ⟨-, ht⟩ | ⟨-, -, rfl⟩ | ⟨-, -, ht⟩ | ⟨-, -, rfl⟩
    · exact raised s .estate rfl (by simp [PendingOp.raises]) ht
    · exact .inl rfl
    · exact raised (s.setMem s.spoiled).draw .ebus rfl (by simp [PendingOp.raises]) ht
    · exact .inl rfl
  | setPalette ps =>
    rcases execSetPalette_cases h with ht | ⟨-, rfl⟩ | ⟨-, ht⟩ | ⟨-, rfl⟩
    · exact raised s .erange rfl (by simp [PendingOp.raises]) ht
    · exact .inl rfl
    · exact raised s.stageUnknown.draw .ebus rfl (by simp [PendingOp.raises]) ht
    · exact .inl rfl
  | setGamma l =>
    rcases execSetGamma_cases h with ht | ⟨-, rfl⟩
    · exact raised s .egamma rfl (by simp [PendingOp.raises]) ht
    · exact .inl rfl
  | nearest r g b => cases h; exact .inl rfl

/-- PRESENT answers a next state, or reaches device memory and stops (R68). -/
theorem execPresent_total (s : State) :
    (∃ t, execPresent s = .next t) ∨
      (s.initFlag = true ∧ s.presentPort = .device ∧ execPresent s = .fault .deviceMemory) := by
  unfold execPresent
  cases hi : s.initFlag
  · exact .inl ⟨_, rfl⟩
  · cases hp : s.presentPort
    case device => exact .inr ⟨rfl, rfl, rfl⟩
    all_goals exact .inl ⟨_, rfl⟩

/-- SET_PALETTE answers a next state, or its buffer fits, it reaches device memory and it stops (R68). -/
theorem execSetPalette_total (s : State) :
    (∃ t, execSetPalette s = .next t) ∨
      (s.paletteSource + 768 ≤ 2 ^ 64 ∧ s.palettePort = .device ∧ execSetPalette s = .fault .deviceMemory) := by
  unfold execSetPalette
  split
  · exact .inl ⟨_, rfl⟩
  · rename_i hf
    cases hp : s.palettePort
    case device => exact .inr ⟨Nat.not_lt.1 hf, rfl, rfl⟩
    all_goals exact .inl ⟨_, rfl⟩

/-- INIT, SHUTDOWN and SET_GAMMA answer a next state. -/
theorem execInit_total (s : State) : ∃ t, execInit s = .next t := by
  unfold execInit
  split
  · exact ⟨_, rfl⟩
  · split <;> exact ⟨_, rfl⟩

theorem execShutdown_total (s : State) : ∃ t, execShutdown s = .next t := by
  unfold execShutdown
  split <;> exact ⟨_, rfl⟩

theorem execSetGamma_total (level : Byte) (s : State) : ∃ t, execSetGamma level s = .next t := by
  unfold execSetGamma
  split <;> exact ⟨_, rfl⟩

/-! ### Issue -/

/-- The word of an ACK, from its operands (R99). -/
theorem ackWord_eq : ∀ clrStat clrErr, ackWord clrStat clrErr = encodeCommand (.ack clrStat clrErr) := by decide

/-- The only words that decode to an ACK are those of R99. -/
theorem ackWord_of_decode {w : Word} {clrStat clrErr : Bool} (h : decodeCommand w = .ok (.ack clrStat clrErr)) :
    w = ackWord clrStat clrErr := by
  rcases decodeCommand_cases w with ⟨-, h'⟩ | ⟨c, h', he, -⟩ | h' <;> rw [h] at h' <;> cases h'
  rw [ackWord_eq]
  exact he.symm

/-- Everything the issue of a command word can do (R233): record an error, act as NOP or ACK, or accept. -/
theorem issue_cases {w : Word} {s t : State} (h : issue w s = .next t) :
    (∃ code, t = s.recordErr code) ∨ t = s ∨
    (∃ clrStat clrErr, decodeCommand w = .ok (.ack clrStat clrErr) ∧
      t = { s with statDue := if clrStat then false else s.statDue, err := if clrErr then .noError else s.err }) ∨
    (s.pending = none ∧ ∃ op, t = { s with pending := some { op := op, raced := [] } }) := by
  have acc : ∀ op, t = s.accept op → (∃ code, t = s.recordErr code) ∨ t = s ∨
      (∃ clrStat clrErr, decodeCommand w = .ok (.ack clrStat clrErr) ∧
        t = { s with statDue := if clrStat then false else s.statDue, err := if clrErr then .noError else s.err }) ∨
      (s.pending = none ∧ ∃ op, t = { s with pending := some { op := op, raced := [] } }) := by
    intro op ht
    by_cases hp : s.pending = none
    · exact .inr (.inr (.inr ⟨hp, op, ht.trans (State.accept_idle hp op)⟩))
    · exact .inl ⟨.ebusy, ht.trans (State.accept_busy hp op)⟩
  unfold issue at h
  split at h
  · cases h; exact .inl ⟨_, rfl⟩
  · cases h; exact .inl ⟨_, rfl⟩
  · cases h; exact .inr (.inl rfl)
  · rename_i a b hd; cases h; exact .inr (.inr (.inl ⟨a, b, hd, rfl⟩))
  all_goals cases h; exact acc _ rfl

/-- What the issue of a command word does to STATUS.ERR (R233, R234): it stays; or it was 0 and takes EOPCODE, or EBUSY
while a command is pending; or the word is an ACK with CLR_ERR, which clears it. -/
theorem issue_err {w : Word} {s t : State} (h : issue w s = .next t) :
    t.err = s.err ∨ (s.err = .noError ∧ (t.err = .eopcode ∨ (t.err = .ebusy ∧ s.pending ≠ none))) ∨
      (t.err = .noError ∧ ∃ clrStat, w = ackWord clrStat true) := by
  have acc : ∀ op, t = s.accept op →
      t.err = s.err ∨ (s.err = .noError ∧ (t.err = .eopcode ∨ (t.err = .ebusy ∧ s.pending ≠ none))) ∨
        (t.err = .noError ∧ ∃ clrStat, w = ackWord clrStat true) := by
    rintro op rfl
    by_cases hp : s.pending = none
    · rw [State.accept_idle hp]; exact .inl rfl
    · rw [State.accept_busy hp]
      by_cases he : s.err = .noError
      · exact .inr (.inl ⟨he, .inr ⟨by simp [he], hp⟩⟩)
      · exact .inl (by simp [he])
  have bad : t = s.recordErr .eopcode →
      t.err = s.err ∨ (s.err = .noError ∧ (t.err = .eopcode ∨ (t.err = .ebusy ∧ s.pending ≠ none))) ∨
        (t.err = .noError ∧ ∃ clrStat, w = ackWord clrStat true) := by
    rintro rfl
    by_cases he : s.err = .noError
    · exact .inr (.inl ⟨he, .inl (by simp [he])⟩)
    · exact .inl (by simp [he])
  unfold issue at h
  split at h
  · cases h; exact bad rfl
  · cases h; exact bad rfl
  · cases h; exact .inl rfl
  · rename_i a b hd
    cases h
    cases b
    · exact .inl rfl
    · exact .inr (.inr ⟨rfl, a, ackWord_of_decode hd⟩)
  all_goals cases h; exact acc _ rfl

/-- The issue of any command word answers a next state. -/
theorem issue_total (w : Word) (s : State) : ∃ t, issue w s = .next t := by
  unfold issue
  split <;> exact ⟨_, rfl⟩

/-! ### Events -/

theorem nextEvent_cons {s : State} {e : Event} {es : List Event} (h : s.inbox = e :: es) :
    s.nextEvent = e := by simp [State.nextEvent, h]

theorem nextEvent_nil {s : State} (h : s.inbox = []) : s.nextEvent = .engine := by simp [State.nextEvent, h]

theorem step_eq (s : State) : step s = runEvent s.nextEvent s.takeEvent := rfl

/-- A step on a waiting access runs the operation it decodes to. -/
theorem step_access {s : State} {a : Access} {i : Instr} (he : s.nextEvent = .access a)
    (hd : decode (.access a) = .ok i) : step s = exec i s.takeEvent := by
  rw [step_eq, he, runEvent, runAccess, hd]

/-- A step of the engine with a command pending runs its completion. -/
theorem step_engine {s : State} {p : Pending} (he : s.nextEvent = .engine) (hp : s.pending = some p) :
    step s = exec p.op.toInstr s.takeEvent := by
  rw [step_eq, he, runEvent, runEngine]
  simp [hp]

/-- A step of an idle engine only ends the pulses of the step before. -/
theorem step_idle {s : State} (he : s.nextEvent = .engine) (hp : s.pending = none) : step s = .next s.takeEvent := by
  rw [step_eq, he, runEvent, runEngine]
  simp [hp]

/-- A step on a waiting access that is no operation only answers with a bus error. -/
theorem step_badAccess {s : State} {a : Access} {e : DecodeError} (he : s.nextEvent = .access a)
    (hd : decode (.access a) = .error e) : step s = .next (s.takeEvent.respond .busError) := by
  rw [step_eq, he, runEvent, runAccess, hd]

/-- The access that issues a command word. -/
theorem step_cmdWrite {s : State} {w : Word} (he : s.nextEvent = cmdWrite w) :
    step s = issue w (s.takeEvent.respond .written) := by
  have hd : decode (.access { offset := 0x000#12, size := .b4, dir := .write w }) = .ok (.wrCmd w) := rfl
  rw [step_access he hd]; rfl

/-! ### Host accesses -/

/-- Everything a read at any offset can do: answer. -/
theorem exec_decodeRead (o : BitVec 12) (s : State) : ∃ v, exec (decodeRead o) s = .next (s.respond (.data v)) := by
  unfold decodeRead
  cases slotOf o <;> exact ⟨_, rfl⟩

/-- Everything a write at any offset can do: answer a next state. -/
theorem exec_decodeWrite_total (o : BitVec 12) (v : Word) (s : State) : ∃ t, exec (decodeWrite o v) s = .next t := by
  unfold decodeWrite
  cases slotOf o <;> first | exact issue_total _ _ | exact ⟨_, rfl⟩

/-- A host access answers a next state. -/
theorem runAccess_total (a : Access) (s : State) : ∃ t, runAccess a s = .next t := by
  unfold runAccess
  split
  · rename_i i hd
    obtain ⟨o, size, dir⟩ := a
    simp only [decode, decodeAccess] at hd
    split at hd
    · cases hd
    split at hd
    · cases hd
    cases dir <;> cases hd
    · exact (exec_decodeRead o s).imp' _ fun _ h => h
    · exact exec_decodeWrite_total _ _ s
  · exact ⟨_, rfl⟩

/-- Everything a host access can do (R102): answer, issue a command word, or write one configuration register. -/
theorem runAccess_cases {a : Access} {s t : State} (h : runAccess a s = .next t) :
    (∃ r, t = s.respond r) ∨
    ∃ o v, a = { offset := o, size := .b4, dir := .write v } ∧
      ((o = 0x000#12 ∧ issue v (s.respond .written) = .next t) ∨
        (o = 0x008#12 ∧ t = { s with resp := .written, width := v.extractLsb' 0 16 }) ∨
        (o = 0x00C#12 ∧ t = { s with resp := .written, height := v.extractLsb' 0 16 }) ∨
        ((o = 0x010#12 ∨ o = 0x014#12) ∧ ∃ x, t = { s with resp := .written, logBase := x }) ∨
        ((o = 0x018#12 ∨ o = 0x01C#12) ∧ ∃ x, t = { s with resp := .written, physBase := x }) ∨
        ((o = 0x020#12 ∨ o = 0x024#12) ∧ ∃ x, t = { s with resp := .written, palSrc := x })) := by
  obtain ⟨o, size, dir⟩ := a
  simp only [runAccess, decode, decodeAccess] at h
  split at h
  · rename_i i hd
    split at hd
    · cases hd
    rename_i hs
    split at hd
    · cases hd
    rename_i ha
    have ha : o.toNat % 4 = 0 := by simpa [isAligned] using ha
    simp only [ne_eq, not_not] at hs
    subst hs
    cases dir with
    | read =>
      cases hd
      obtain ⟨v, hv⟩ := exec_decodeRead o s
      rw [hv] at h
      cases h
      exact .inl ⟨_, rfl⟩
    | write v =>
      cases hd
      rcases slotOf_cases o ha with ⟨⟨k, hk⟩, rfl⟩ | ⟨-, -, hs⟩ | ⟨-, -, hs⟩ | ⟨-, hs⟩
      · interval_cases k <;> simp [decodeWrite] at h <;>
          first
            | exact .inr ⟨_, v, rfl, .inl ⟨rfl, h⟩⟩
            | (cases h; exact .inl ⟨_, rfl⟩)
            | (cases h; exact .inr ⟨_, v, rfl, by simp [State.respond]⟩)
      all_goals
        rw [decodeWrite, hs] at h
        cases h
        exact .inl ⟨_, rfl⟩
  · cases h
    exact .inl ⟨_, rfl⟩

end Sys2Proof.Machine
end

