-- ==== Sys2Proof/Laws/PerInstr.lean ====
section
/-! SUPPORT. Facts about every operation as syntax, one lemma per constructor of `Instr`. -/

namespace Sys2Proof.Laws.EncodeShape

/-- A well-formed operation is encoded as a command word or as a 32-bit access at an aligned offset (R90, R91, R98). -/
def Statement (i : Instr) : Prop :=
  i.wellFormed = true →
    match encode i with
    | .command _ => True
    | .access a => a.size = .b4 ∧ isAligned a.offset = true

/-- Every offset of the CT window is aligned (R23). -/
theorem ctOffset_aligned (i : Byte) : isAligned (windowOffset 0x400#12 i) = true := by
  revert i; decide +kernel

/-- Every offset of the P565 window is aligned (R23). -/
theorem p565Offset_aligned (i : Byte) : isAligned (windowOffset 0x800#12 i) = true := by
  revert i; decide +kernel

theorem nop : Statement .nop := fun _ => trivial
theorem init : Statement .init := fun _ => trivial
theorem shutdown : Statement .shutdown := fun _ => trivial
theorem present : Statement .present := fun _ => trivial
theorem setPalette : Statement .setPalette := fun _ => trivial
theorem setGamma (level : Byte) : Statement (.setGamma level) := fun _ => trivial
theorem nearest (r g b : Byte) : Statement (.nearest r g b) := fun _ => trivial
theorem ack (clrStat clrErr : Bool) : Statement (.ack clrStat clrErr) := fun _ => trivial
theorem wrCmd (data : Word) : Statement (.wrCmd data) := fun _ => ⟨rfl, (by decide : isAligned 0x000#12 = true)⟩
theorem wrWidth (data : Word) : Statement (.wrWidth data) := fun _ => ⟨rfl, (by decide : isAligned 0x008#12 = true)⟩
theorem wrHeight (data : Word) : Statement (.wrHeight data) := fun _ => ⟨rfl, (by decide : isAligned 0x00C#12 = true)⟩
theorem wrLogBaseLo (data : Word) : Statement (.wrLogBaseLo data) := fun _ => ⟨rfl, (by decide : isAligned 0x010#12 = true)⟩
theorem wrLogBaseHi (data : Word) : Statement (.wrLogBaseHi data) := fun _ => ⟨rfl, (by decide : isAligned 0x014#12 = true)⟩
theorem wrPhysBaseLo (data : Word) : Statement (.wrPhysBaseLo data) := fun _ => ⟨rfl, (by decide : isAligned 0x018#12 = true)⟩
theorem wrPhysBaseHi (data : Word) : Statement (.wrPhysBaseHi data) := fun _ => ⟨rfl, (by decide : isAligned 0x01C#12 = true)⟩
theorem wrPalSrcLo (data : Word) : Statement (.wrPalSrcLo data) := fun _ => ⟨rfl, (by decide : isAligned 0x020#12 = true)⟩
theorem wrPalSrcHi (data : Word) : Statement (.wrPalSrcHi data) := fun _ => ⟨rfl, (by decide : isAligned 0x024#12 = true)⟩
theorem wrStatus (data : Word) : Statement (.wrStatus data) := fun _ => ⟨rfl, (by decide : isAligned 0x004#12 = true)⟩
theorem wrGamma (data : Word) : Statement (.wrGamma data) := fun _ => ⟨rfl, (by decide : isAligned 0x028#12 = true)⟩
theorem wrFrameCount (data : Word) : Statement (.wrFrameCount data) := fun _ => ⟨rfl, (by decide : isAligned 0x02C#12 = true)⟩
theorem wrHalfSize (data : Word) : Statement (.wrHalfSize data) := fun _ => ⟨rfl, (by decide : isAligned 0x030#12 = true)⟩
theorem wrActiveBaseLo (data : Word) : Statement (.wrActiveBaseLo data) := fun _ => ⟨rfl, (by decide : isAligned 0x034#12 = true)⟩
theorem wrActiveBaseHi (data : Word) : Statement (.wrActiveBaseHi data) := fun _ => ⟨rfl, (by decide : isAligned 0x038#12 = true)⟩
theorem wrNearest (data : Word) : Statement (.wrNearest data) := fun _ => ⟨rfl, (by decide : isAligned 0x03C#12 = true)⟩
theorem wrCtWindow (i : Byte) (data : Word) : Statement (.wrCtWindow i data) := fun _ => ⟨rfl, ctOffset_aligned i⟩
theorem wrP565Window (i : Byte) (data : Word) : Statement (.wrP565Window i data) := fun _ => ⟨rfl, p565Offset_aligned i⟩
theorem rdCmd : Statement .rdCmd := fun _ => ⟨rfl, (by decide : isAligned 0x000#12 = true)⟩
theorem rdStatus : Statement .rdStatus := fun _ => ⟨rfl, (by decide : isAligned 0x004#12 = true)⟩
theorem rdWidth : Statement .rdWidth := fun _ => ⟨rfl, (by decide : isAligned 0x008#12 = true)⟩
theorem rdHeight : Statement .rdHeight := fun _ => ⟨rfl, (by decide : isAligned 0x00C#12 = true)⟩
theorem rdLogBaseLo : Statement .rdLogBaseLo := fun _ => ⟨rfl, (by decide : isAligned 0x010#12 = true)⟩
theorem rdLogBaseHi : Statement .rdLogBaseHi := fun _ => ⟨rfl, (by decide : isAligned 0x014#12 = true)⟩
theorem rdPhysBaseLo : Statement .rdPhysBaseLo := fun _ => ⟨rfl, (by decide : isAligned 0x018#12 = true)⟩
theorem rdPhysBaseHi : Statement .rdPhysBaseHi := fun _ => ⟨rfl, (by decide : isAligned 0x01C#12 = true)⟩
theorem rdPalSrcLo : Statement .rdPalSrcLo := fun _ => ⟨rfl, (by decide : isAligned 0x020#12 = true)⟩
theorem rdPalSrcHi : Statement .rdPalSrcHi := fun _ => ⟨rfl, (by decide : isAligned 0x024#12 = true)⟩
theorem rdGamma : Statement .rdGamma := fun _ => ⟨rfl, (by decide : isAligned 0x028#12 = true)⟩
theorem rdFrameCount : Statement .rdFrameCount := fun _ => ⟨rfl, (by decide : isAligned 0x02C#12 = true)⟩
theorem rdHalfSize : Statement .rdHalfSize := fun _ => ⟨rfl, (by decide : isAligned 0x030#12 = true)⟩
theorem rdActiveBaseLo : Statement .rdActiveBaseLo := fun _ => ⟨rfl, (by decide : isAligned 0x034#12 = true)⟩
theorem rdActiveBaseHi : Statement .rdActiveBaseHi := fun _ => ⟨rfl, (by decide : isAligned 0x038#12 = true)⟩
theorem rdNearest : Statement .rdNearest := fun _ => ⟨rfl, (by decide : isAligned 0x03C#12 = true)⟩
theorem rdCt (i : Byte) : Statement (.rdCt i) := fun _ => ⟨rfl, ctOffset_aligned i⟩
theorem rdP565 (i : Byte) : Statement (.rdP565 i) := fun _ => ⟨rfl, p565Offset_aligned i⟩
theorem reservedOffset (offset : BitVec 12) (dir : Direction) : Statement (.reservedOffset offset dir) := fun h => ⟨rfl, (Bool.and_eq_true _ _ ▸ h : _ ∧ _).1⟩
theorem reservedOpcode (w : Word) : Statement (.reservedOpcode w) := fun _ => trivial

end Sys2Proof.Laws.EncodeShape
end

