-- ==== Sys2Proof/Laws/Present.lean ====
section
/-! SUPPORT. Laws of PRESENT: what its memory holds after the conversion, byte by byte. -/

namespace Sys2Proof.Machine

/-! ### Sizes and bases -/

theorem le_nextPow2 (x : Nat) : x ≤ nextPow2 x := by
  unfold nextPow2
  split
  · assumption
  · have := Nat.lt_log2_self (n := x - 1)
    omega

/-- The texels fit in one half (R37). -/
theorem Geometry.Legal.texels_fit {g : Geometry} (h : g.Legal) : 4 * g.n ≤ g.s := by
  rw [h.half]
  exact le_nextPow2 _

theorem State.inactiveBase_eq (s : State) :
    s.inactiveBase = s.geom.phys.toNat + (if s.active then 0 else s.geom.s) := by
  unfold State.inactiveBase Geometry.halfBase
  cases s.active <;> simp

theorem State.targetSpan_contains (s : State) (a : Nat) :
    s.targetSpan.contains a = true ↔ s.inactiveBase ≤ a ∧ a < s.inactiveBase + 4 * s.geom.n :=
  Span.contains_iff _ _

theorem State.inactiveSpan_contains (s : State) (a : Nat) :
    s.inactiveSpan.contains a = true ↔ s.inactiveBase ≤ a ∧ a < s.inactiveBase + s.geom.s :=
  Span.contains_iff _ _

theorem State.sourceSpan_contains (s : State) (a : Nat) :
    s.sourceSpan.contains a = true ↔ s.geom.log.toNat ≤ a ∧ a < s.geom.log.toNat + s.geom.n :=
  Span.contains_iff _ _

/-- The inactive half lies below 2^64 (R129). -/
theorem State.half_bound {s : State} (h : s.geom.Legal) : s.inactiveBase + s.geom.s ≤ 2 ^ 64 := by
  have h2 := h.physicalFits
  rw [State.inactiveBase_eq]
  split <;> omega

/-- The target is part of the inactive half. -/
theorem State.target_inactive {s : State} (h : s.geom.Legal) {a : Nat} (ha : s.targetSpan.contains a = true) :
    s.inactiveSpan.contains a = true := by
  have h1 := h.texels_fit
  rw [State.targetSpan_contains] at ha
  rw [State.inactiveSpan_contains]
  omega

/-- The inactive half lies outside the active half (R156). -/
theorem State.inactive_not_active {s : State} {a : Nat} (ha : s.inactiveSpan.contains a = true) :
    ¬ (s.geom.halfBase s.active ≤ a ∧ a < s.geom.halfBase s.active + s.geom.s) := by
  rw [State.inactiveSpan_contains, State.inactiveBase_eq] at ha
  unfold Geometry.halfBase
  cases hs : s.active <;> simp [hs] at ha ⊢ <;> omega

/-- The inactive half lies outside the logical surface (R129). -/
theorem State.inactive_not_source {s : State} (h : s.geom.Legal) {a : Nat} (ha : s.inactiveSpan.contains a = true) :
    s.sourceSpan.contains a = false := by
  have h2 := h.disjoint
  rw [State.inactiveSpan_contains, State.inactiveBase_eq] at ha
  rw [← Bool.not_eq_true, State.sourceSpan_contains]
  split at ha <;> omega

/-! ### Memory after PRESENT -/

theorem State.converted_wf {s : State} (h : s.mem.wf) : s.converted.wf := Memory.writePairs_wf h _ _ _

theorem State.scrambled_wf {s : State} (h : s.mem.wf) : s.scrambled.wf := Memory.fill_wf h _ _ _

theorem State.presented_wf {s : State} (h : s.mem.wf) : s.presented.wf := Memory.scribble_wf (State.converted_wf h) _ _

theorem State.spoiled_wf {s : State} (h : s.mem.wf) : s.spoiled.wf := Memory.scribble_wf (State.scrambled_wf h) _ _

/-- Read after the raced bytes of the inactive half took free values (R77). -/
theorem State.read_raceBytes {s : State} (hg : s.geom.Legal) {m : Memory} (hm : m.wf) (a : Nat) :
    (s.raceBytes m).read a =
      if a ∈ s.raced ∧ s.inactiveSpan.contains a = true then Config.freeByte s.fresh (a - s.inactiveBase)
      else m.read a := by
  rw [State.raceBytes, Memory.read_scribble hm]
  simp only [List.mem_filter]
  by_cases h : a ∈ s.raced ∧ s.inactiveSpan.contains a = true
  · have ha := (State.inactiveSpan_contains s a).1 h.2
    have hb := State.half_bound hg
    rw [if_pos ⟨h, by omega⟩, if_pos h]
  · rw [if_neg fun hc => h hc.1, if_neg h]

/-- Two texels side by side, byte by byte (R154). -/
theorem State.pairWord_byte (s : State) (d : Nat) :
    (s.pairWord (d / 8)).extractLsb' (8 * (d % 8)) 8 = (s.texel (d / 4)).extractLsb' (8 * (d % 4)) 8 := by
  unfold State.pairWord
  apply BitVec.eq_of_getLsbD_eq
  intro i hi
  simp only [BitVec.getLsbD_extractLsb', BitVec.getLsbD_append, hi]
  have : d / 8 * 2 = d / 4 ∨ d / 8 * 2 + 1 = d / 4 := by omega
  rcases this with h | h
  · have e1 : 2 * (d / 8) = d / 4 := by omega
    have e2 : 8 * (d % 8) = 8 * (d % 4) := by omega
    rw [e2, if_pos (by omega), e1]
  · have e1 : 2 * (d / 8) + 1 = d / 4 := by omega
    have e2 : 8 * (d % 8) + i - 32 = 8 * (d % 4) + i := by omega
    rw [if_neg (by omega), e1, e2]

/-- Read after the conversion: every target byte is of its texel, the rest is as before (R153). -/
theorem State.read_converted {s : State} (hg : s.geom.Legal) (hm : s.mem.wf) (a : Nat) :
    s.converted.read a =
      if s.targetSpan.contains a = true then
        (s.texel ((a - s.inactiveBase) / 4)).extractLsb' (8 * ((a - s.inactiveBase) % 4)) 8
      else s.mem.read a := by
  have hn := hg.blocks
  have h1 := hg.texels_fit
  have hb := State.half_bound hg
  have e : 8 * (s.geom.n / 2) = 4 * s.geom.n := by omega
  rw [State.converted, Memory.read_writePairs hm, e, State.pairWord_byte]
  by_cases hc : s.targetSpan.contains a = true
  · have hc' := (State.targetSpan_contains s a).1 hc
    rw [if_pos ⟨hc'.1, hc'.2, by omega⟩, if_pos hc]
  · rw [if_neg fun h => hc ((State.targetSpan_contains s a).2 ⟨h.1, h.2.1⟩), if_neg hc]

/-- Read after a PRESENT: a raced byte of the inactive half is free, every other target byte is of its texel, the rest is
as before (R76, R77, R153). -/
theorem State.read_presented {s : State} (hg : s.geom.Legal) (hm : s.mem.wf) (a : Nat) :
    s.presented.read a =
      if a ∈ s.raced ∧ s.inactiveSpan.contains a = true then Config.freeByte s.fresh (a - s.inactiveBase)
      else if s.targetSpan.contains a = true then
        (s.texel ((a - s.inactiveBase) / 4)).extractLsb' (8 * ((a - s.inactiveBase) % 4)) 8
      else s.mem.read a := by
  rw [State.presented, State.read_raceBytes hg (State.converted_wf hm), State.read_converted hg hm]

/-- Read after a PRESENT that met a bus error (R77, R162). -/
theorem State.read_spoiled {s : State} (hg : s.geom.Legal) (hm : s.mem.wf) (a : Nat) :
    s.spoiled.read a =
      if (a ∈ s.raced ∧ s.inactiveSpan.contains a = true) ∨ s.targetSpan.contains a = true then
        Config.freeByte s.fresh (a - s.inactiveBase)
      else s.mem.read a := by
  have hb := State.half_bound hg
  rw [State.spoiled, State.read_raceBytes hg (State.scrambled_wf hm), State.read_scrambled hm]
  by_cases h1 : a ∈ s.raced ∧ s.inactiveSpan.contains a = true
  · rw [if_pos h1, if_pos (.inl h1)]
  · rw [if_neg h1]
    by_cases h2 : s.targetSpan.contains a = true
    · have h3 := (State.inactiveSpan_contains s a).1 (State.target_inactive hg h2)
      rw [if_pos ⟨h2, by omega⟩, if_pos (.inr h2)]
    · rw [if_neg fun h => h2 h.1, if_neg fun h => h.elim h1 h2]

/-- A texel of a pair no other agent wrote is the color of its pixel (R153). -/
theorem State.texel_unraced {s : State} (hg : s.geom.Legal) (h : s.Unraced s.sourceSpan) {j : Nat} (hj : j < s.geom.n) :
    s.texel j = s.ct.get (s.mem.read (s.geom.log.toNat + j)) := by
  have hn := hg.blocks
  have hp : s.pairRaced (j / 2) = false := by
    unfold State.pairRaced
    simp only [Bool.or_eq_false_iff, List.contains_eq_mem, decide_eq_false_iff_not]
    constructor <;>
      (intro hm
       have := h _ hm
       rw [← Bool.not_eq_true, State.sourceSpan_contains] at this
       omega)
  rw [State.texel, hp]
  rfl

/-! ### Words in memory -/

/-- A 32-bit word whose four bytes are known (R61). -/
theorem Memory.read32_of_bytes {m : Memory} {a : Nat} {v : Word}
    (h : ∀ c, c < 4 → m.read (a + c) = v.extractLsb' (8 * c) 8) : m.read32 a = v := by
  unfold Memory.read32
  rw [h 3 (by omega), h 2 (by omega), h 1 (by omega), show m.read a = _ from h 0 (by omega)]
  exact (word_eq_bytes v).symm

/-- A 64-bit read is two 32-bit reads, the lower address in the low lane (R63). -/
theorem Memory.read64_eq (m : Memory) (a : Nat) : m.read64 a = m.read32 (a + 4) ++ m.read32 a := by
  unfold Memory.read64 Memory.read32
  apply BitVec.eq_of_getLsbD_eq
  intro i _
  simp only [BitVec.getLsbD_append]
  by_cases h : i < 32
  · simp only [h, if_true]
    by_cases h1 : i < 8
    · simp only [h1, if_true]
    by_cases h2 : i - 8 < 8
    · simp only [h1, h2, if_true, if_false]
    by_cases h3 : i - 8 - 8 < 8
    · simp only [h1, h2, h3, if_true, if_false]
    · simp only [h1, h2, h3, show i - 8 - 8 - 8 < 8 by omega, if_true, if_false]
  · have h0 : ¬ i < 8 ∧ ¬ i - 8 < 8 ∧ ¬ i - 8 - 8 < 8 ∧ ¬ i - 8 - 8 - 8 < 8 := by omega
    simp only [h, h0, if_false, show i - 8 - 8 - 8 - 8 = i - 32 by omega, Nat.add_assoc, Nat.reduceAdd]

end Sys2Proof.Machine
end

