-- ==== Sys2Proof/Tests/Slice0.lean ====
section
/-! SUPPORT. Tests of single steps, whose expected values are those of spec/30_encoding.md and
spec/95_examples_and_programs.md (the vector is named at each), and one witness per hypothesis of the obligations. -/

namespace Sys2Proof.Tests
open Sys2Proof Sys2Proof.Machine

/- One test at a time: each `decide +kernel` waits in a thread of its own for the declarations before it. -/
set_option Elab.async false

/-! ### Helpers -/

/-- Whether a result is a next state with a property. -/
def nextIs (r : Result) (p : State → Bool) : Bool :=
  match r with
  | .next t => p t
  | .fault _ => false
  | .refused _ => false

theorem of_nextIs {r : Result} {p : State → Bool} (h : nextIs r p = true) : ∃ t, r = .next t ∧ p t = true := by
  cases r with
  | next t => exact ⟨t, rfl, h⟩
  | fault _ => cases h
  | refused _ => cases h

/-- The geometry of vector G2: 16 × 1 pixels, logical at 0x1000, physical at 0x2000, halves of 64 bytes. -/
def g2 : Geometry := { w := 16, h := 1, n := 16, log := 0x1000, phys := 0x2000, s := 64 }

/-- A color table whose entry 0 is red and entry 1 green (vector T2). -/
def colors : Table 32 := Table.of fun i => if i = 0 then 0x00FF0000#32 else if i = 1 then 0x0000FF00#32 else 0

/-- The shadow palette of table T-D. -/
def shadowD : Table 16 :=
  Table.of fun i => if i = 1 then 0xF800#16 else if i = 2 then 0x07E0#16 else if i = 3 then 0x001F#16
    else if i = 4 then 0xFFFF#16 else 0

/-- G2 latched, pixel 1 of the logical surface 1, the other pixels 0 (vector T2, first pair). -/
def latched : State := { State.reset with initFlag := true, geom := g2, ct := colors, mem := [(0x1001, 1)] }

/-- A state with a command pending. -/
def pend (s : State) (op : PendingOp) : State := { s with pending := some { op := op, raced := [] } }

/-- A state with an event waiting. -/
def on (s : State) (e : Event) : State := { s with inbox := [e] }

/-- A state with one bus region. -/
def busAt (s : State) (kind : BusKind) (lo len : Nat) : State :=
  { s with bus := [{ span := { lo := lo, len := len }, kind := kind }] }

/-- Two frames waiting, with a bus region between the logical surface and the halves. -/
def twoFrames : State := { busAt latched .silent 0x1010 0xFF0 with inbox := frames 2 }

/-- A 32-bit write access. -/
def wr (o : BitVec 12) (v : Word) : Event := .access { offset := o, size := .b4, dir := .write v }

/-- A 32-bit read access. -/
def rd (o : BitVec 12) : Event := .access { offset := o, size := .b4, dir := .read }

/-- The answer of the next step. -/
def answers (s : State) (r : Response) : Bool := nextIs (step s) fun t => t.resp == r

/-- STATUS after the next step. -/
def statusAfter (s : State) (v : Word) : Bool := nextIs (step s) fun t => t.statusWord == v

/-! ### WellFormed: an ill-formed term for each check -/

theorem test_wf_misaligned_offset : Instr.wellFormed (.reservedOffset 0x041#12 .read) = false := by decide

theorem test_wf_defined_offset : Instr.wellFormed (.reservedOffset 0x400#12 .read) = false ∧
    Instr.wellFormed (.reservedOffset 0x03C#12 .read) = false ∧
    Instr.wellFormed (.reservedOffset 0xBFC#12 .read) = false := by decide

theorem test_wf_defined_opcode : Instr.wellFormed (.reservedOpcode 0x00000007#32) = false := by decide

/-! ### Decoding: every constructor, from words and offsets written out from R23, R94, R99 and R102 -/

theorem test_decode_commands :
    decode (.command 0x00000000#32) = .ok (.nop) ∧
    decode (.command 0x00000001#32) = .ok (.init) ∧
    decode (.command 0x00000002#32) = .ok (.shutdown) ∧
    decode (.command 0x00000003#32) = .ok (.present) ∧
    decode (.command 0x00000004#32) = .ok (.setPalette) ∧
    decode (.command 0x00000305#32) = .ok (.setGamma 3) ∧
    decode (.command 0x050AFA06#32) = .ok (.nearest 250 10 5) ∧
    decode (.command 0x00000107#32) = .ok (.ack true false) ∧
    decode (.command 0x00000207#32) = .ok (.ack false true) ∧
    decode (.command 0x00000009#32) = .ok (.reservedOpcode 0x00000009#32) ∧
    decode (.command 0xFFFFFFFF#32) = .ok (.reservedOpcode 0xFFFFFFFF#32) := by decide

/-- Vectors E3 to E7, and a reserved bit of each other format (R96). -/
theorem test_decode_reserved_bits :
    decode (.command 0x00000103#32) = .error .reservedBits ∧
    decode (.command 0x00000013#32) = .error .reservedBits ∧
    decode (.command 0x00010005#32) = .error .reservedBits ∧
    decode (.command 0x00000407#32) = .error .reservedBits ∧
    decode (.command 0x80000000#32) = .error .reservedBits ∧
    decode (.command 0x00000016#32) = .error .reservedBits ∧
    decode (.command 0x00000081#32) = .error .reservedBits ∧
    decode (.command 0x01000002#32) = .error .reservedBits ∧
    decode (.command 0x00000044#32) = .error .reservedBits := by decide

theorem test_decode_register_writes :
    decode (.access { offset := 0x000#12, size := .b4, dir := .write 0x00000003#32 }) = .ok (.wrCmd 0x00000003#32) ∧
    decode (.access { offset := 0x008#12, size := .b4, dir := .write 0x80100000#32 }) = .ok (.wrWidth 0x80100000#32) ∧
    decode (.access { offset := 0x00C#12, size := .b4, dir := .write 0x80100000#32 }) = .ok (.wrHeight 0x80100000#32) ∧
    decode (.access { offset := 0x010#12, size := .b4, dir := .write 0x80100000#32 }) = .ok (.wrLogBaseLo 0x80100000#32) ∧
    decode (.access { offset := 0x014#12, size := .b4, dir := .write 0x80100000#32 }) = .ok (.wrLogBaseHi 0x80100000#32) ∧
    decode (.access { offset := 0x018#12, size := .b4, dir := .write 0x80100000#32 }) = .ok (.wrPhysBaseLo 0x80100000#32) ∧
    decode (.access { offset := 0x01C#12, size := .b4, dir := .write 0x80100000#32 }) = .ok (.wrPhysBaseHi 0x80100000#32) ∧
    decode (.access { offset := 0x020#12, size := .b4, dir := .write 0x80100000#32 }) = .ok (.wrPalSrcLo 0x80100000#32) ∧
    decode (.access { offset := 0x024#12, size := .b4, dir := .write 0x80100000#32 }) = .ok (.wrPalSrcHi 0x80100000#32) := by decide

theorem test_decode_ignored_writes :
    decode (.access { offset := 0x004#12, size := .b4, dir := .write 0x00000005#32 }) = .ok (.wrStatus 0x00000005#32) ∧
    decode (.access { offset := 0x028#12, size := .b4, dir := .write 0x00000005#32 }) = .ok (.wrGamma 0x00000005#32) ∧
    decode (.access { offset := 0x02C#12, size := .b4, dir := .write 0x00000005#32 }) = .ok (.wrFrameCount 0x00000005#32) ∧
    decode (.access { offset := 0x030#12, size := .b4, dir := .write 0x00000005#32 }) = .ok (.wrHalfSize 0x00000005#32) ∧
    decode (.access { offset := 0x034#12, size := .b4, dir := .write 0x00000005#32 }) = .ok (.wrActiveBaseLo 0x00000005#32) ∧
    decode (.access { offset := 0x038#12, size := .b4, dir := .write 0x00000005#32 }) = .ok (.wrActiveBaseHi 0x00000005#32) ∧
    decode (.access { offset := 0x03C#12, size := .b4, dir := .write 0x00000005#32 }) = .ok (.wrNearest 0x00000005#32) ∧
    decode (.access { offset := 0x400#12, size := .b4, dir := .write 0x00000005#32 }) = .ok (.wrCtWindow 0 0x00000005#32) ∧
    decode (.access { offset := 0x7FC#12, size := .b4, dir := .write 0x00000005#32 }) = .ok (.wrCtWindow 255 0x00000005#32) ∧
    decode (.access { offset := 0x804#12, size := .b4, dir := .write 0x00000005#32 }) = .ok (.wrP565Window 1 0x00000005#32) ∧
    decode (.access { offset := 0xC00#12, size := .b4, dir := .write 0x00000005#32 }) = .ok (.reservedOffset 0xC00#12 (.write 0x00000005#32)) := by decide

theorem test_decode_reads :
    decode (.access { offset := 0x000#12, size := .b4, dir := .read }) = .ok (.rdCmd) ∧
    decode (.access { offset := 0x004#12, size := .b4, dir := .read }) = .ok (.rdStatus) ∧
    decode (.access { offset := 0x008#12, size := .b4, dir := .read }) = .ok (.rdWidth) ∧
    decode (.access { offset := 0x00C#12, size := .b4, dir := .read }) = .ok (.rdHeight) ∧
    decode (.access { offset := 0x010#12, size := .b4, dir := .read }) = .ok (.rdLogBaseLo) ∧
    decode (.access { offset := 0x014#12, size := .b4, dir := .read }) = .ok (.rdLogBaseHi) ∧
    decode (.access { offset := 0x018#12, size := .b4, dir := .read }) = .ok (.rdPhysBaseLo) ∧
    decode (.access { offset := 0x01C#12, size := .b4, dir := .read }) = .ok (.rdPhysBaseHi) ∧
    decode (.access { offset := 0x020#12, size := .b4, dir := .read }) = .ok (.rdPalSrcLo) ∧
    decode (.access { offset := 0x024#12, size := .b4, dir := .read }) = .ok (.rdPalSrcHi) ∧
    decode (.access { offset := 0x028#12, size := .b4, dir := .read }) = .ok (.rdGamma) ∧
    decode (.access { offset := 0x02C#12, size := .b4, dir := .read }) = .ok (.rdFrameCount) ∧
    decode (.access { offset := 0x030#12, size := .b4, dir := .read }) = .ok (.rdHalfSize) ∧
    decode (.access { offset := 0x034#12, size := .b4, dir := .read }) = .ok (.rdActiveBaseLo) ∧
    decode (.access { offset := 0x038#12, size := .b4, dir := .read }) = .ok (.rdActiveBaseHi) ∧
    decode (.access { offset := 0x03C#12, size := .b4, dir := .read }) = .ok (.rdNearest) ∧
    decode (.access { offset := 0x40C#12, size := .b4, dir := .read }) = .ok (.rdCt 3) ∧
    decode (.access { offset := 0x7FC#12, size := .b4, dir := .read }) = .ok (.rdCt 255) ∧
    decode (.access { offset := 0x810#12, size := .b4, dir := .read }) = .ok (.rdP565 4) ∧
    decode (.access { offset := 0xBFC#12, size := .b4, dir := .read }) = .ok (.rdP565 255) ∧
    decode (.access { offset := 0x3FC#12, size := .b4, dir := .read }) = .ok (.reservedOffset 0x3FC#12 .read) ∧
    decode (.access { offset := 0x040#12, size := .b4, dir := .read }) = .ok (.reservedOffset 0x040#12 .read) := by decide

/-- R64: a 16-bit access at 0x004 and a 32-bit access at 0x006 (section 2.5 of the vectors). -/
theorem test_decode_bad_accesses :
    decode (.access { offset := 0x004#12, size := .b2, dir := .read }) = .error .notWordAccess ∧
    decode (.access { offset := 0x006#12, size := .b4, dir := .read }) = .error .misaligned := by decide

/-- The rows of spec/opcode_table.json as decodeTableWord numbers them (log entry 3). -/
theorem test_decode_table_words :
    decodeTableWord 32 0x00000003 = some .present ∧ decodeTableWord 16 0x0008 = some (.wrWidth 0) ∧
    decodeTableWord 16 0x01400008 = some (.wrWidth 0x140#32) ∧ decodeTableWord 16 0x1004 = some .rdStatus ∧
    decodeTableWord 32 0x00000103 = none := by decide

/-! ### Single steps: the vectors of spec/95_examples_and_programs.md -/

/-- Operands of INIT. -/
def initOp (w h : Half) (lb pb : DWord) : PendingOp := .init w h lb pb

/-- STATUS and HALF_SIZE after the completion of an INIT. -/
def initGives (op : PendingOp) (status halfSize : Word) : Bool :=
  nextIs (exec .init (pend State.reset op)) fun t => t.statusWord == status && t.halfSize == halfSize

/-- G1, G4 and G6. -/
theorem test_init_ok :
    initGives (initOp 320 200 0x80000000 0x80100000) 0x4#32 0x40000#32 = true ∧
    initGives (initOp 3 16 0x1000 0x2000) 0x4#32 0x100#32 = true ∧
    initGives (initOp 32768 16384 0x0 0x100000000) 0x4#32 0x80000000#32 = true := by decide +kernel

/-- G7, G9, G11, G12, G14 and G16; G13 and G15 are legal. -/
theorem test_init_errors :
    initGives (initOp 32768 32768 0x0 0x100000000) 0x40#32 0 = true ∧
    initGives (initOp 17 1 0x1000 0x2000) 0x40#32 0 = true ∧
    initGives (initOp 16 1 0x1000 0x2004) 0x50#32 0 = true ∧
    initGives (initOp 16 1 0x1000 0x1008) 0x60#32 0 = true ∧
    initGives (initOp 16 1 0xFFFFFFFFFFFFFFF8 0x2000) 0x60#32 0 = true ∧
    initGives (initOp 17 1 0x1000 0x2004) 0x40#32 0 = true ∧
    initGives (initOp 16 1 0x1000 0x1010) 0x4#32 0x40#32 = true ∧
    initGives (initOp 16 1 0x1000 0xFFFFFFFFFFFFFF80) 0x4#32 0x40#32 = true := by decide +kernel

/-- From STATUS = 0x6, SHUTDOWN keeps ACTIVE and the geometry reads 0; from STATUS = 0 it is ESTATE. -/
theorem test_shutdown :
    nextIs (exec .shutdown { latched with active := true }) (fun t =>
      t.statusWord == 0x2#32 && t.halfSize == 0 && t.activeBase == 0 && !t.outValid) = true ∧
    nextIs (exec .shutdown State.reset) (fun t => t.statusWord == 0x30#32) = true := by decide +kernel

/-- T2: lane order; T12: the flip. -/
theorem test_present_lanes :
    nextIs (exec .present latched) (fun t =>
      (List.range 8).map (fun i => t.mem.read (0x2040 + i)) == [0x00, 0x00, 0xFF, 0x00, 0x00, 0xFF, 0x00, 0x00] &&
      t.mem.read64 0x2078 == 0x00FF000000FF0000#64 && t.mem.read 0x2000 == 0 && t.mem.read 0x2080 == 0 &&
      t.outActive && t.outActiveBase == 0x2040 && t.outFlip && t.frameCount == 1) = true := by decide +kernel

/-- T3, T8, T9, T10: the other half, and the trigger. -/
theorem test_present_counts :
    nextIs (exec .present { latched with active := true, frameCount := 511 }) (fun t =>
      t.mem.read64 0x2000 == 0x0000FF0000FF0000#64 && t.mem.read64 0x2040 == 0 && !t.active &&
      t.frameCount == 512 && t.statDue) = true ∧
    nextIs (exec .present { latched with frameCount := 0xFFFFFFFF, statDue := false }) (fun t =>
      t.frameCount == 0 && t.statDue) = true := by decide +kernel

/-- T7 and T9: no trigger at 511; sticky at 513. -/
theorem test_present_sticky :
    nextIs (exec .present { latched with frameCount := 510 }) (fun t => t.frameCount == 511 && !t.statDue) = true ∧
    nextIs (exec .present { latched with frameCount := 512, statDue := true }) (fun t =>
      t.frameCount == 513 && t.statDue) = true := by decide +kernel

/-- T11: a bus error on the write to 0x2048. -/
theorem test_present_bus_error :
    nextIs (exec .present (busAt latched .error 0x2048 1)) (fun t =>
      t.statusWord == 0x84#32 && t.frameCount == 0 && !t.flip) = true := by decide +kernel

/-- The palette bytes of vector P-a, then of P-e, at 0x3001 (PS odd is legal). -/
def palette : Memory :=
  [(0x3001, 0x12), (0x3002, 0x34), (0x3003, 0x56), (0x3004, 0xFF), (0x3005, 0xFF), (0x3006, 0xFF)]

/-- P-a and P-e at gamma level 0. -/
theorem test_set_palette :
    nextIs (exec .setPalette (pend { State.reset with mem := palette } (.setPalette 0x3001))) (fun t =>
      t.ct.get 0 == 0x00123456#32 && t.p565.get 0 == 0x11AA#16 && t.ct.get 1 == 0x00FFFFFF#32 &&
      t.p565.get 1 == 0xFFFF#16 && t.ct.get 2 == 0 && t.pending.isNone) = true := by decide +kernel

/-- PS + 768 > 2^64 is ERANGE; PS + 768 = 2^64 is legal. -/
theorem test_set_palette_range :
    nextIs (exec .setPalette (pend { State.reset with ct := colors } (.setPalette 0xFFFFFFFFFFFFFE00))) (fun t =>
      t.statusWord == 0x60#32 && t.ct.get 0 == 0x00FF0000#32) = true ∧
    nextIs (exec .setPalette (pend { State.reset with ct := colors } (.setPalette 0xFFFFFFFFFFFFFD00))) (fun t =>
      t.statusWord == 0 && t.ct.get 0 == 0) = true := by decide +kernel

/-- The decode565 column of P-a, P-e and P-g. -/
theorem test_decode565 :
    (red565 0x11AA#16, green565 0x11AA#16, blue565 0x11AA#16) = (16, 52, 80) ∧
    (red565 0xFFFF#16, green565 0xFFFF#16, blue565 0xFFFF#16) = (248, 252, 248) ∧
    (red565 0x0821#16, green565 0x0821#16, blue565 0x0821#16) = (8, 4, 8) := by decide

/-- N4 and N6. -/
theorem test_nearest :
    nextIs (exec (.nearest 250 10 5) { State.reset with p565 := shadowD }) (fun t => t.nearest == 1) = true ∧
    nextIs (exec (.nearest 128 128 128) { State.reset with p565 := shadowD }) (fun t => t.nearest == 4) = true := by
  decide +kernel

/-- N1 and N5: before any palette, and the lowest of many exact duplicates. -/
theorem test_nearest_ties :
    nextIs (exec (.nearest 10 20 30) State.reset) (fun t => t.nearest == 0) = true ∧
    nextIs (exec (.nearest 0 0 0) { State.reset with p565 := shadowD, nearest := 9 }) (fun t => t.nearest == 0) =
      true := by decide +kernel

/-- The state of E13 to E16: STATUS = 0x2C. -/
def status2C : State := { State.reset with initFlag := true, statDue := true, err := .ebusy }

/-- E13 to E16. -/
theorem test_ack :
    statusAfter (on status2C (wr 0x000#12 0x307#32)) 0x04#32 = true ∧
    statusAfter (on status2C (wr 0x000#12 0x107#32)) 0x24#32 = true ∧
    statusAfter (on status2C (wr 0x000#12 0x207#32)) 0x0C#32 = true ∧
    statusAfter (on status2C (wr 0x000#12 0x007#32)) 0x2C#32 = true := by decide +kernel

/-- E1, E3, E8 (acceptance), E9, E10, E11, E12 and E17. -/
theorem test_issue :
    statusAfter (on State.reset (wr 0x000#12 0x009#32)) 0x10#32 = true ∧
    statusAfter (on State.reset (wr 0x000#12 0x103#32)) 0x10#32 = true ∧
    statusAfter (on State.reset (wr 0x000#12 0x003#32)) 0x01#32 = true ∧
    statusAfter (on (pend State.reset .shutdown) (wr 0x000#12 0x003#32)) 0x21#32 = true ∧
    statusAfter (on (pend State.reset .shutdown) (wr 0x000#12 0x000#32)) 0x01#32 = true ∧
    statusAfter (on (pend State.reset .shutdown) (wr 0x000#12 0x009#32)) 0x11#32 = true ∧
    statusAfter (on { State.reset with err := .estate } (wr 0x000#12 0x009#32)) 0x30#32 = true ∧
    statusAfter (on (pend { State.reset with err := .ebusy } .shutdown) (wr 0x000#12 0x207#32)) 0x01#32 = true := by
  decide +kernel

/-- Lines 10 to 12 and 15 to 18 of P1 as reads; CMD and the reserved offset 0x040 read 0. -/
theorem test_reads :
    answers (on { latched with active := true, frameCount := 1 } (rd 0x02C#12)) (.data 0x00000001#32) = true ∧
    answers (on { latched with active := true } (rd 0x034#12)) (.data 0x00002040#32) = true ∧
    answers (on latched (rd 0x030#12)) (.data 0x00000040#32) = true ∧
    answers (on latched (rd 0x400#12)) (.data 0x00FF0000#32) = true ∧
    answers (on { State.reset with p565 := shadowD } (rd 0x810#12)) (.data 0x0000FFFF#32) = true ∧
    answers (on latched (rd 0x000#12)) (.data 0) = true ∧ answers (on latched (rd 0x040#12)) (.data 0) = true := by
  decide +kernel

/-- Line 1 of P2, G10, and both halves of a 64-bit register. -/
theorem test_register_writes :
    nextIs (step (on State.reset (wr 0x008#12 0x10#32))) (fun t => t.width == 0x10#16) = true ∧
    nextIs (step (on State.reset (wr 0x008#12 0x10000#32))) (fun t => t.width == 0) = true ∧
    nextIs (step (on { State.reset with logBase := 0x1111111122222222 } (wr 0x010#12 0x80000000#32))) (fun t =>
      t.logBase == 0x1111111180000000#64) = true ∧
    nextIs (step (on { State.reset with palSrc := 0x1111111122222222 } (wr 0x024#12 0x80000000#32))) (fun t =>
      t.palSrc == 0x8000000022222222#64) = true := by decide +kernel

/-- X2: reset aborts a PRESENT with no flip; memory outside the target is kept. -/
theorem test_reset_aborts :
    nextIs (step (on (pend { latched with frameCount := 3, err := .ebus } .present) .reset)) (fun t =>
      t.statusWord == 0 && t.frameCount == 0 && !t.flip && t.mem.read 0x1001 == 1 && t.halfSize == 0) = true := by
  decide +kernel

/-- A placed instruction is what the next step runs (log entry 4). -/
theorem test_placed :
    statusAfter (State.reset.withFetchWord 32 0x3) 0x30#32 = true ∧
    nextIs (step (State.reset.withFetchWord 16 0x01400008)) (fun t => t.width == 0x140#16) = true := by decide +kernel

/-! ### Witnesses: a concrete state and operands that meet the hypotheses of each obligation -/

theorem g2_legal : g2.Legal := by constructor <;> decide +kernel

theorem clear_nil {s : State} (h : s.bus = []) (q : Span) : s.Clear q := by
  intro r hr
  rw [h] at hr
  cases hr

theorem unraced_nil {s : State} (h : s.raced = []) (q : Span) : s.Unraced q := by
  intro a ha
  rw [h] at ha
  cases ha

/-- A region of one kind is clear of every other kind. -/
theorem clearOf_busAt {s : State} {kind other : BusKind} {lo len : Nat} (h : kind ≠ other) (q : Span) :
    (busAt s kind lo len).ClearOf other q := by
  intro r hr hk
  simp only [busAt, List.mem_singleton] at hr
  subst hr
  exact absurd hk h

theorem hits_busAt {s : State} {kind : BusKind} {lo len : Nat} {q : Span}
    (h : Span.overlaps { lo := lo, len := len } q = true) : (busAt s kind lo len).Hits kind q :=
  ⟨_, List.mem_singleton.2 rfl, rfl, h⟩

/-- Holds of an outcome that is a next state: as the claims say it. -/
theorem next_of {r : Result} {p : State → Bool} {q : State → Prop} (h : nextIs r p = true)
    (hq : ∀ t, p t = true → q t) : ∃ t, r = .next t ∧ q t :=
  let ⟨t, ht, hp⟩ := of_nextIs h
  ⟨t, ht, hq t hp⟩

/-- NextPow2IsTheLeastPower, at the spot values of R9. -/
theorem witness_nextPow2 : 1 ≤ 1 ∧ nextPow2 1 = 1 ∧ nextPow2 64 = 64 ∧ nextPow2 192 = 256 ∧
    nextPow2 256000 = 262144 ∧ nextPow2 (2 ^ 31) = 2 ^ 31 := by decide +kernel

/-- DecodeOfEncodeIsTheOperation, at the ends of each checked range. -/
theorem witness_wellFormed : Instr.wellFormed (.reservedOffset 0x040#12 .read) = true ∧
    Instr.wellFormed (.reservedOffset 0x3FC#12 .read) = true ∧
    Instr.wellFormed (.reservedOffset 0xC00#12 (.write 1)) = true ∧
    Instr.wellFormed (.reservedOffset 0xFFC#12 .read) = true ∧
    Instr.wellFormed (.reservedOpcode 0xFFFFFFFF#32) = true ∧
    Instr.wellFormed (.nearest 255 255 255) = true := by decide

/-- EveryCommandWordHasOneMeaning: both cases occur. -/
theorem witness_commandWords : (∃ w c, decodeCommand w = .ok c) ∧ ∃ w, decodeCommand w = .error .reservedBits :=
  ⟨⟨0x3#32, .present, by decide⟩, 0x103#32, by decide⟩

theorem witness_ResetInputRestoresTheResetValues :
    (on latched .reset).mem.wf ∧ (on latched .reset).inbox = .reset :: [] ∧
      (on latched .reset).presenting = false := by decide

/-- ResetAbortsThePendingCommand, clause 1: a PRESENT, with the last byte of its target. -/
theorem witness_ResetAborts_present :
    (on (pend latched .present) .reset).mem.wf ∧ (on (pend latched .present) .reset).inbox = .reset :: [] ∧
      (on (pend latched .present) .reset).pending = some { op := .present, raced := [] } ∧
      (on (pend latched .present) .reset).presenting = true ∧
      (on (pend latched .present) .reset).targetSpan.contains 0x207F = true ∧ 0x207F < 2 ^ 64 := by decide

/-- ResetAbortsThePendingCommand, clause 1: a SET_PALETTE. -/
theorem witness_ResetAborts_palette :
    (on (pend latched (.setPalette 0)) .reset).mem.wf ∧
      (on (pend latched (.setPalette 0)) .reset).inbox = .reset :: [] ∧
      (on (pend latched (.setPalette 0)) .reset).pending = some { op := .setPalette 0, raced := [] } := by decide

/-- ResetAbortsThePendingCommand, clause 2: inside and outside the aborted span. -/
theorem witness_ResetAborts_lateWrite :
    ∃ s : State, s.mem.wf ∧ s.inbox = .lateWrite 0x207F :: [] ∧
      (∃ r ∈ s.inflight, r.contains (0x207F#64).toNat = true) ∧
      ∃ u : State, u.mem.wf ∧ u.inbox = .lateWrite 0x2080 :: [] ∧
        ∀ r ∈ u.inflight, r.contains (0x2080#64).toNat = false :=
  ⟨{ State.reset with inbox := [.lateWrite 0x207F], inflight := [{ lo := 0x2040, len := 64 }] }, by decide, rfl,
    ⟨_, List.mem_singleton.2 rfl, by decide⟩,
    { State.reset with inbox := [.lateWrite 0x2080], inflight := [{ lo := 0x2040, len := 64 }] }, by decide, rfl,
    by decide⟩

/-- StepRunsTheDecodedOperation, each clause. -/
theorem witness_StepRunsTheDecodedOperation :
    (on State.reset (rd 0x004#12)).inbox = rd 0x004#12 :: [] ∧
      decode (.access { offset := 0x004#12, size := .b4, dir := .read }) = .ok .rdStatus ∧
      (on (pend State.reset .present) .engine).inbox = .engine :: [] ∧
      (on (pend State.reset .present) .engine).pending = some { op := .present, raced := [] } ∧
      State.reset.inbox = [] ∧ State.reset.pending = none := by decide

theorem witness_PlacedInstructionRunsNext :
    decodeTableWord 32 0x00000305 = some (.setGamma 3) ∧ decodeTableWord 16 0x0000 = some (.wrCmd 0) := by decide

/-- BadAccessGetsABusError: a byte access, and a 32-bit access at the last offset. -/
theorem witness_BadAccessGetsABusError :
    (on State.reset (.access { offset := 0x000#12, size := .b1, dir := .read })).inbox =
      .access { offset := 0x000#12, size := .b1, dir := .read } :: [] ∧
    (on State.reset (.access { offset := 0xFFF#12, size := .b4, dir := .write 0 })).inbox =
      .access { offset := 0xFFF#12, size := .b4, dir := .write 0 } :: [] ∧
    AccessSize.b1 ≠ .b4 ∧ (0xFFF#12).toNat % 4 ≠ 0 := by decide

/-- ReadsReturnTheRegisterMap: the ends of the map and of each window. -/
theorem witness_ReadsReturnTheRegisterMap :
    (on State.reset (rd 0x000#12)).inbox = rd 0x000#12 :: [] ∧ (0x000#12).toNat % 4 = 0 ∧ (0x03C#12).toNat % 4 = 0 ∧
      (0x400#12).toNat % 4 = 0 ∧ (0x7FC#12).toNat % 4 = 0 ∧ (0x800#12).toNat % 4 = 0 ∧ (0xBFC#12).toNat % 4 = 0 ∧
      (0xFFC#12).toNat % 4 = 0 := by decide

/-- ReadOnlyWritesAreIgnored: the ends of each range. -/
theorem witness_ReadOnlyWritesAreIgnored :
    (on State.reset (wr 0x004#12 1)).inbox = wr 0x004#12 1 :: [] ∧
      [0x004, 0x028, 0x03C, 0x400, 0xBFC].all (fun o => o % 4 = 0 ∧
        (o = 0x004 ∨ (0x028 ≤ o ∧ o ≤ 0x03C) ∨ (0x400 ≤ o ∧ o ≤ 0xBFC))) = true := by decide

/-- ReservedOffsetsReadZero: the ends of each range. -/
theorem witness_ReservedOffsetsReadZero :
    (on State.reset (rd 0xFFC#12)).inbox = rd 0xFFC#12 :: [] ∧
      [0x040, 0x3FC, 0xC00, 0xFFC].all (fun o => o % 4 = 0 ∧ ((0x040 ≤ o ∧ o ≤ 0x3FC) ∨ 0xC00 ≤ o)) = true := by
  decide

/-- IllegalWordRecordsEopcode: E1 to E7 and a reserved bit of every format. -/
theorem witness_IllegalWordRecordsEopcode :
    IllegalWord 0x9#32 ∧ IllegalWord 0xF#32 ∧ IllegalWord 0x103#32 ∧ IllegalWord 0x13#32 ∧ IllegalWord 0x10005#32 ∧
      IllegalWord 0x407#32 ∧ IllegalWord 0x80000000#32 ∧ IllegalWord 0x86#32 :=
  ⟨.inl (by decide), .inl (by decide), .inr ⟨8, by decide, by decide⟩, .inr ⟨4, by decide, by decide⟩,
    .inr ⟨16, by decide, by decide⟩, .inr ⟨10, by decide, by decide⟩, .inr ⟨31, by decide, by decide⟩,
    .inr ⟨7, by decide, by decide⟩⟩

theorem witness_IdleEngineAcceptsCommands : State.reset.pending = none := rfl

theorem witness_BusyEngineRejectsCommands : (pend State.reset .shutdown).pending ≠ none := by decide

theorem witness_CmdWriteKeepsThePendingCommand :
    (pend State.reset .shutdown).pending = some { op := .shutdown, raced := [] } ∧
      ∃ t, exec (.wrCmd 0x3#32) (pend State.reset .shutdown) = .next t :=
  ⟨rfl, (of_nextIs (p := fun _ => true) (by decide +kernel)).imp fun _ h => h.1⟩

/-- FirstErrorStays: a second error, an ACK, and reset. -/
theorem witness_FirstErrorStays :
    (∃ t, step (on { State.reset with err := .estate } (wr 0x000#12 0x9#32)) = .next t ∧ t.err = .estate) ∧
    (∃ t, step (on { State.reset with err := .estate } (cmdWrite (ackWord false true))) = .next t ∧
      t.err = .noError) ∧
    (∃ t, step (on { State.reset with err := .estate } .reset) = .next t ∧ t.err = .noError) ∧
    ErrCode.estate ≠ .noError :=
  ⟨next_of (p := fun t => t.err == .estate) (by decide +kernel) (by simp),
    next_of (p := fun t => t.err == .noError) (by decide +kernel) (by simp),
    next_of (p := fun t => t.err == .noError) (by decide +kernel) (by simp), by decide⟩

/-- ErrorsBlockNothing: a command issued, and a read of STATUS. -/
theorem witness_ErrorsBlockNothing :
    (∃ t, step (on State.reset (wr 0x000#12 0x3#32)) = .next t) ∧ ∃ t, step (on State.reset (rd 0x004#12)) = .next t :=
  ⟨(of_nextIs (p := fun _ => true) (by decide +kernel)).imp fun _ h => h.1,
    (of_nextIs (p := fun _ => true) (by decide +kernel)).imp fun _ h => h.1⟩

/-- FailedCommandsAreRegisterPrecise: an ESTATE, and an EBUS. -/
theorem witness_FailedCommandsAreRegisterPrecise :
    (∃ t, exec .present (pend State.reset .present) = .next t ∧ t.err ≠ .noError ∧ t.err ≠ .ebus) ∧
    (∃ t, exec .present (busAt (pend latched .present) .error 0x1000 1) = .next t ∧ t.err = .ebus) ∧
    (pend State.reset .present).err = .noError ∧ (busAt (pend latched .present) .error 0x1000 1).err = .noError :=
  ⟨next_of (p := fun t => t.err == .estate) (by decide +kernel) (fun t h => by
      have : t.err = .estate := by simpa using h
      rw [this]
      decide),
    next_of (p := fun t => t.err == .ebus) (by decide +kernel) (by simp), rfl, rfl⟩

/-- A pending INIT of the geometry G2. -/
def initG2 : State := pend State.reset (.init 16 1 0x1000 0x2000)

/-- The engine's step of each command completes it. -/
theorem completing_pend (s : State) (op : PendingOp) : (on (pend s op) .engine).Completing op := ⟨rfl, [], rfl⟩

/-- StatusFlagWriters: each flag changes in some step. -/
theorem witness_StatusFlagWriters :
    (∃ t, step (on initG2 .engine) = .next t ∧ t.initFlag ≠ false) ∧
    (∃ t, step (on (pend latched .shutdown) .engine) = .next t ∧ t.initFlag ≠ true) ∧
    (∃ t, step (on (pend { latched with frameCount := 511 } .present) .engine) = .next t ∧ t.active ≠ false ∧
      t.statDue ≠ false ∧ t.busy ≠ true) ∧
    (∃ t, step (on status2C (cmdWrite (ackWord true false))) = .next t ∧ t.statDue ≠ true) ∧
    (∃ t, step (on State.reset (wr 0x000#12 0x3#32)) = .next t ∧ t.busy ≠ false) ∧
    (∃ t, step (on (pend State.reset (.init 0 1 0x1000 0x2000)) .engine) = .next t ∧ t.err = .edim) ∧
    (∃ t, step (on State.reset (wr 0x000#12 0x8#32)) = .next t ∧ t.err = .eopcode) ∧
    (∃ t, step (on initG2 (wr 0x000#12 0x3#32)) = .next t ∧ t.err = .ebusy) ∧
    (∃ t, step (on { State.reset with err := .edim } (cmdWrite (ackWord false true))) = .next t ∧ t.err = .noError) ∧
    (on initG2 .engine).nextEvent ≠ .reset :=
  ⟨next_of (p := fun t => t.initFlag) (by decide +kernel) (by simp),
    next_of (p := fun t => !t.initFlag) (by decide +kernel) (by simp),
    next_of (p := fun t => t.active && t.statDue && !t.busy) (by decide +kernel) (by simp +contextual),
    next_of (p := fun t => !t.statDue) (by decide +kernel) (by simp),
    next_of (p := fun t => t.busy) (by decide +kernel) (by simp),
    next_of (p := fun t => t.err == .edim) (by decide +kernel) (by simp),
    next_of (p := fun t => t.err == .eopcode) (by decide +kernel) (by simp),
    next_of (p := fun t => t.err == .ebusy) (by decide +kernel) (by simp),
    next_of (p := fun t => t.err == .noError) (by decide +kernel) (by simp), by decide⟩

/-- RegisterWriters: each register changes in some step. -/
theorem witness_RegisterWriters :
    (∃ t, step (on (pend { State.reset with gamma := 7 } (.setGamma 0)) .engine) = .next t ∧ t.gamma = 0) ∧
    (∃ t, step (on (pend latched .present) .engine) = .next t ∧ t.frameCount = 1) ∧
    (∃ t, step (on (pend { State.reset with p565 := shadowD } (.nearest 250 10 5)) .engine) = .next t ∧
      t.nearest = 1) ∧
    (∃ t, step (on initG2 .engine) = .next t ∧ t.geom = g2) ∧
    (∃ t, step (on (pend { State.reset with mem := palette } (.setPalette 0x3001)) .engine) = .next t ∧
      t.ct.get 0 = 0x00123456#32 ∧ t.p565.get 0 = 0x11AA#16) ∧
    (∃ t, step (on State.reset (wr 0x00C#12 5)) = .next t ∧ t.height = 5) ∧
    (∃ t, step (on State.reset (wr 0x01C#12 5)) = .next t ∧ t.physBase = 0x0000000500000000#64) :=
  ⟨⟨_, rfl, rfl⟩,
    next_of (p := fun t => t.frameCount == 1) (by decide +kernel) (by simp),
    next_of (p := fun t => t.nearest == 1) (by decide +kernel) (by simp),
    next_of (p := fun t => t.geom == g2) (by decide +kernel) (by simp),
    next_of (p := fun t => t.ct.get 0 == 0x00123456#32 && t.p565.get 0 == 0x11AA#16) (by decide +kernel) (by simp),
    next_of (p := fun t => t.height == 5) (by decide +kernel) (by simp),
    next_of (p := fun t => t.physBase == 0x0000000500000000#64) (by decide +kernel) (by simp)⟩

/-- The hypotheses of the INIT statements on sizes. -/
def sizeLegal (w h : Half) : Bool :=
  w != 0 && h != 0 && (w.toNat * h.toNat) % 16 == 0 && 4 * (w.toNat * h.toNat) ≤ 2 ^ 31

/-- InitLatchesTheGeometry: G2, G6, G13 and G15; the two regions share no byte. -/
theorem witness_InitLatchesTheGeometry :
    initG2.pending = some { op := .init 16 1 0x1000 0x2000, raced := [] } ∧ initG2.initFlag = false ∧
      sizeLegal 16 1 = true ∧ sizeLegal 32768 16384 = true ∧ (0x2000#64).toNat % 8 = 0 ∧
      (0x1000#64).toNat + 16 ≤ 2 ^ 64 ∧ (0xFFFFFFFFFFFFFF80#64).toNat + 2 * nextPow2 (4 * 16) ≤ 2 ^ 64 ∧
      (∀ a, ¬ ((0x1000 ≤ a ∧ a < 0x1000 + 16) ∧ (0x1010 ≤ a ∧ a < 0x1010 + 2 * 64))) ∧
      ∀ a, ¬ ((0x1000 ≤ a ∧ a < 0x1000 + 16) ∧ (0x2000 ≤ a ∧ a < 0x2000 + 2 * 64)) :=
  ⟨rfl, rfl, by decide, by decide, by decide, by decide, by decide +kernel, by omega, by omega⟩

/-- InitWhileLatchedIsEstate: G17. -/
theorem witness_InitWhileLatchedIsEstate :
    (pend latched (.init 16 1 0x1000 0x2000)).pending = some { op := .init 16 1 0x1000 0x2000, raced := [] } ∧
      (pend latched (.init 16 1 0x1000 0x2000)).initFlag = true := ⟨rfl, rfl⟩

/-- InitSizeConstraint: G8, the other zero, G9, and the first size above the bound; the least and greatest legal. -/
theorem witness_InitSizeConstraint :
    initG2.pending = some { op := .init 16 1 0x1000 0x2000, raced := [] } ∧ initG2.initFlag = false ∧
      ((0#16) = 0 ∨ False) ∧ (((17#16).toNat * (1#16).toNat) % 16 ≠ 0) ∧
      (2 ^ 31 < 4 * ((32768#16).toNat * (16385#16).toNat)) ∧ sizeLegal 16 1 = true ∧ sizeLegal 32768 16384 = true := by
  decide

/-- InitAlignmentConstraint: G11. -/
theorem witness_InitAlignmentConstraint :
    (pend State.reset (.init 16 1 0x1000 0x2004)).pending = some { op := .init 16 1 0x1000 0x2004, raced := [] } ∧
      (pend State.reset (.init 16 1 0x1000 0x2004)).initFlag = false ∧ sizeLegal 16 1 = true ∧
      (0x2004#64).toNat % 8 ≠ 0 := by decide

/-- InitRangeConstraint: G14, PHYS one slot above G15, and G12. -/
theorem witness_InitRangeConstraint :
    (pend State.reset (.init 16 1 0x1000 0x1008)).pending = some { op := .init 16 1 0x1000 0x1008, raced := [] } ∧
      (pend State.reset (.init 16 1 0x1000 0x1008)).initFlag = false ∧ sizeLegal 16 1 = true ∧
      (0x1008#64).toNat % 8 = 0 ∧ 2 ^ 64 < (0xFFFFFFFFFFFFFFF8#64).toNat + 16 ∧
      2 ^ 64 < (0xFFFFFFFFFFFFFF88#64).toNat + 2 * nextPow2 (4 * 16) ∧
      ∃ a, (0x1000 ≤ a ∧ a < 0x1000 + 16) ∧ (0x1008 ≤ a ∧ a < 0x1008 + 2 * nextPow2 (4 * 16)) :=
  ⟨rfl, rfl, by decide, by decide, by decide, by decide +kernel, 0x1008, by decide, by decide +kernel⟩

theorem witness_ShutdownReleasesOrIsEstate : latched.initFlag = true ∧ State.reset.initFlag = false := ⟨rfl, rfl⟩

/-- PresentConvertsTheSurface, and the common hypotheses of the PRESENT statements. -/
theorem witness_PresentConvertsTheSurface :
    (pend latched .present).initFlag = true ∧ (pend latched .present).geom.Legal ∧ (pend latched .present).mem.wf ∧
      (pend latched .present).Clear (pend latched .present).sourceSpan ∧
      (pend latched .present).Clear (pend latched .present).targetSpan ∧
      (pend latched .present).Unraced (pend latched .present).sourceSpan ∧
      (pend latched .present).Unraced (pend latched .present).inactiveSpan :=
  ⟨rfl, g2_legal, by decide, clear_nil rfl _, clear_nil rfl _, unraced_nil rfl _, unraced_nil rfl _⟩

theorem witness_PresentPacksPairs :
    (∃ t, exec .present (pend latched .present) = .next t) ∧ 2 * 7 < (pend latched .present).geom.n :=
  ⟨(of_nextIs (p := fun _ => true) (by decide +kernel)).imp fun _ h => h.1, by decide⟩

/-- A PRESENT during which another agent wrote pixel 1 and the last byte of the target. -/
def racedPresent : State := { latched with pending := some { op := .present, raced := [0x1001, 0x207F] } }

theorem witness_PresentUnderRaces :
    racedPresent.initFlag = true ∧ racedPresent.geom.Legal ∧ racedPresent.mem.wf ∧
      racedPresent.Clear racedPresent.sourceSpan ∧ racedPresent.Clear racedPresent.targetSpan ∧
      racedPresent.geom.log.toNat + 2 * 0 + 1 ∈ racedPresent.raced ∧
      racedPresent.geom.log.toNat + 2 * 7 ∉ racedPresent.raced ∧
      racedPresent.inactiveBase + 8 * 7 + 6 ∉ racedPresent.raced ∧ 0x207F ∈ racedPresent.raced ∧
      racedPresent.inactiveSpan.contains 0x207F = true ∧ racedPresent.targetSpan.contains 0x2080 = false ∧
      racedPresent.inactiveSpan.contains 0x2080 = false :=
  ⟨rfl, g2_legal, by decide, clear_nil rfl _, clear_nil rfl _, by decide, by decide, by decide, by decide, by decide,
    by decide, by decide⟩

/-- PresentBusErrorIsEbus: the write of T11, and a read of the last pixel. -/
theorem witness_PresentBusErrorIsEbus :
    (busAt latched .error 0x2048 1).geom.Legal ∧
      (busAt latched .error 0x2048 1).ClearOf .device (busAt latched .error 0x2048 1).sourceSpan ∧
      (busAt latched .error 0x2048 1).ClearOf .silent (busAt latched .error 0x2048 1).targetSpan ∧
      (busAt latched .error 0x2048 1).Hits .error (busAt latched .error 0x2048 1).targetSpan ∧
      (busAt latched .error 0x100F 1).Hits .error (busAt latched .error 0x100F 1).sourceSpan :=
  ⟨g2_legal, clearOf_busAt (by decide) _, clearOf_busAt (by decide) _, hits_busAt (by decide), hits_busAt (by decide)⟩

theorem witness_PresentWithoutGeometryIsEstate : State.reset.initFlag = false := rfl

/-- UnansweredAccessLeavesTheCommandPending, both clauses. -/
theorem witness_UnansweredAccessLeavesTheCommandPending :
    (busAt latched .silent 0x1000 1).ClearOf .device (busAt latched .silent 0x1000 1).sourceSpan ∧
      (busAt latched .silent 0x1000 1).ClearOf .error (busAt latched .silent 0x1000 1).targetSpan ∧
      (busAt latched .silent 0x1000 1).Hits .silent (busAt latched .silent 0x1000 1).sourceSpan ∧
      (busAt State.reset .silent 0x2FF 1).paletteSource + 768 ≤ 2 ^ 64 ∧
      (busAt State.reset .silent 0x2FF 1).Hits .silent (busAt State.reset .silent 0x2FF 1).paletteSpan :=
  ⟨clearOf_busAt (by decide) _, clearOf_busAt (by decide) _, hits_busAt (by decide), by decide, hits_busAt (by decide)⟩

/-- OnlyDeviceMemoryStops: the hypotheses of the first two clauses; and a device region right behind the target, off
every range of the PRESENT, stops nothing. -/
theorem witness_OnlyDeviceMemoryStops :
    (busAt latched .device 0x207F 1).Hits .device (busAt latched .device 0x207F 1).targetSpan ∧
      (busAt State.reset .device 0 1).Hits .device (busAt State.reset .device 0 1).paletteSpan ∧
      (busAt State.reset .device 0 1).paletteSource + 768 ≤ 2 ^ 64 ∧
      (on (busAt (pend latched .present) .device 0x2080 1) .engine).Completing .present ∧
      ∃ t, step (on (busAt (pend latched .present) .device 0x2080 1) .engine) = .next t ∧ t.pending = none :=
  ⟨hits_busAt (by decide), hits_busAt (by decide), by decide, ⟨rfl, [], rfl⟩,
    next_of (p := fun t => t.pending.isNone) (by decide +kernel) (by simp)⟩

theorem witness_RunsWithoutDeviceMemoryNeverStop : latched.NoDevice := by
  constructor <;> intro r hr <;> cases hr

/-- FramesAlternateAndCount: two frames, with a bus region between the surface and the halves. -/
theorem witness_FramesAlternateAndCount :
    (twoFrames.initFlag = true ∧ twoFrames.pending = none ∧ twoFrames.inbox = frames 2 ++ []) ∧
      twoFrames.Clear twoFrames.sourceSpan ∧
      ∀ b, twoFrames.Clear { lo := twoFrames.geom.halfBase b, len := 4 * twoFrames.geom.n } := by
  unfold State.Clear
  decide

/-- PresentReadsOnlyTheSurface: another memory with the same pixels. -/
theorem witness_PresentReadsOnlyTheSurface :
    ({ latched with mem := [(0x0, 9), (0x1001, 1)] } : State).mem.wf ∧
      (∀ a, latched.sourceSpan.contains a = true →
        Memory.read [(0x0, 9), (0x1001, 1)] a = latched.mem.read a) ∧
      ∃ t, exec .present (pend latched .present) = .next t ∧ t.pending = none := by
  refine ⟨by decide, fun a ha => ?_, next_of (p := fun t => t.pending.isNone) (by decide +kernel) (by simp)⟩
  have h : 0x1000 ≤ a := ((latched.sourceSpan_contains a).1 ha).1
  simp only [Memory.read_cons, latched]
  rw [if_neg (by omega)]

/-- The invariant of a state with G2 latched. -/
theorem latched_inv : (on (pend latched .present) .engine).Inv where
  memory := by decide
  gammaLevel := Nat.succ_pos _
  geometry _ := g2_legal
  alpha i := by
    show (colors.get i).extractLsb' 24 8 = 0
    rw [colors, Table.get_of]
    split
    · rfl
    · split <;> rfl

/-- OnlyTheInactiveHalfIsWritten: byte 2 of the first texel changes. -/
theorem witness_OnlyTheInactiveHalfIsWritten :
    (on (pend latched .present) .engine).Inv ∧ (on (pend latched .present) .engine).nextEvent = .engine ∧
      ∃ t, step (on (pend latched .present) .engine) = .next t ∧
        t.mem.read 0x2042 ≠ (on (pend latched .present) .engine).mem.read 0x2042 :=
  ⟨latched_inv, rfl, next_of (p := fun t => t.mem.read 0x2042 == 0xFF) (by decide +kernel) (fun t h => by
    have : t.mem.read 0x2042 = 0xFF := by simpa using h
    rw [this]
    decide)⟩

/-- SetPaletteRebuildsTheTables: the highest legal buffer. -/
theorem witness_SetPaletteRebuildsTheTables :
    (pend State.reset (.setPalette 0xFFFFFFFFFFFFFD00)).pending =
        some { op := .setPalette 0xFFFFFFFFFFFFFD00, raced := [] } ∧
      (0xFFFFFFFFFFFFFD00#64).toNat + 768 ≤ 2 ^ 64 ∧
      (pend State.reset (.setPalette 0xFFFFFFFFFFFFFD00)).Clear { lo := 0xFFFFFFFFFFFFFD00, len := 768 } ∧
      (pend State.reset (.setPalette 0xFFFFFFFFFFFFFD00)).Unraced { lo := 0xFFFFFFFFFFFFFD00, len := 768 } ∧
      (pend State.reset (.setPalette 0xFFFFFFFFFFFFFD00)).gamma = 0 :=
  ⟨rfl, by decide, clear_nil rfl _, unraced_nil rfl _, rfl⟩

/-- SetPaletteErrorsKeepTheTables: one byte too high, and an error at the last byte read. -/
theorem witness_SetPaletteErrorsKeepTheTables :
    2 ^ 64 < (0xFFFFFFFFFFFFFD01#64).toNat + 768 ∧ (0x3000#64).toNat + 768 ≤ 2 ^ 64 ∧
      (busAt (pend State.reset (.setPalette 0x3000)) .error 0x32FF 1).pending =
        some { op := .setPalette 0x3000, raced := [] } ∧
      (busAt (pend State.reset (.setPalette 0x3000)) .error 0x32FF 1).ClearOf .device { lo := 0x3000, len := 768 } ∧
      (busAt (pend State.reset (.setPalette 0x3000)) .error 0x32FF 1).ClearOf .silent { lo := 0x3000, len := 768 } ∧
      (busAt (pend State.reset (.setPalette 0x3000)) .error 0x32FF 1).Hits .error { lo := 0x3000, len := 768 } :=
  ⟨by decide, by decide, rfl, clearOf_busAt (by decide) _, clearOf_busAt (by decide) _, hits_busAt (by decide)⟩

/-- SetPaletteUnderRaces: the last byte of entry 0 is raced, entry 255 is not. -/
theorem witness_SetPaletteUnderRaces :
    ({ State.reset with pending := some { op := .setPalette 0x3000, raced := [0x3002] } } : State).Clear
        { lo := 0x3000, len := 768 } ∧
      (0x3000#64).toNat + 768 ≤ 2 ^ 64 ∧
      (∃ c, c < 3 ∧ (0x3000#64).toNat + 3 * (0#8).toNat + c ∈ [0x3002]) ∧
      ∀ c, c < 3 → (0x3000#64).toNat + 3 * (255#8).toNat + c ∉ [0x3002] :=
  ⟨clear_nil rfl _, by decide, ⟨2, by decide, by decide⟩, by decide⟩

/-- NearestIsTheLeastIndexOfTheMinimum, last clause: N10. -/
theorem witness_NearestIsTheLeastIndexOfTheMinimum :
    decoded565 (shadowD.get 1) = (((248#8).toNat : Int), ((0#8).toNat : Int), ((0#8).toNat : Int)) := by decide +kernel

theorem witness_NearestBeforeAnyPaletteIsZero : ∀ i, State.reset.p565.get i = 0x0000#16 := Table.get_zero

theorem witness_SampledOperandsAreKept :
    initG2.pending = some { op := .init 16 1 0x1000 0x2000, raced := [] } ∧ ∃ t, exec .init initG2 = .next t :=
  ⟨rfl, (of_nextIs (p := fun _ => true) (by decide +kernel)).imp fun _ h => h.1⟩

/-- OutputsChangeAtCompletions: an INIT raises out_valid, a PRESENT asserts flip, a host access changes nothing. -/
theorem witness_OutputsChangeAtCompletions :
    (∃ t, step (on initG2 .engine) = .next t ∧ t.outValid ≠ false) ∧
    (∃ t, step (on (pend latched .present) .engine) = .next t ∧ t.outFlip = true) ∧
    (∃ t, step (on { latched with flip := true } .reset) = .next t ∧ t.outFlip = false) ∧
    ∃ t, step (on { latched with flip := true } (rd 0x004#12)) = .next t ∧ t.outFlip = false :=
  ⟨next_of (p := fun t => t.outValid) (by decide +kernel) (by simp),
    next_of (p := fun t => t.outFlip) (by decide +kernel) (by simp),
    next_of (p := fun t => !t.outFlip) (by decide +kernel) (by simp),
    next_of (p := fun t => !t.outFlip) (by decide +kernel) (by simp)⟩

/-- OtherAgentsReadAndWrite, each clause. -/
theorem witness_OtherAgentsReadAndWrite :
    (on latched (.agentWrite 0x1000 5)).mem.wf ∧ (on latched (.agentWrite 0x1000 5)).inbox = .agentWrite 0x1000 5 :: [] ∧
      (on latched (.agentWrite 0x1000 5)).pending = none ∧
      (on (pend latched .present) (.agentRead 0x203F)).inactiveSpan.contains (0x203F#64).toNat = false ∧
      (on (pend latched .present) (.agentRead 0x2040)).presenting = true ∧
      (on (pend latched .present) (.agentRead 0x2040)).inactiveSpan.contains (0x2040#64).toNat = true := by decide

/-- EveryAcceptedCommandCompletes: a command accepted and not yet completed, on a bus that answers with errors. -/
theorem witness_EveryAcceptedCommandCompletes :
    (on (busAt (pend latched .present) .error 0x2048 1) (wr 0x000#12 0x3#32)).Answers ∧
      (on (busAt (pend latched .present) .error 0x2048 1) (wr 0x000#12 0x3#32)).pending =
        some { op := .present, raced := [] } ∧
      .reset ∉ (on (busAt (pend latched .present) .error 0x2048 1) (wr 0x000#12 0x3#32)).inbox := by
  refine ⟨⟨?_, ?_⟩, rfl, by decide⟩
  · decide
  · intro rs hrs
    simp only [on, List.mem_singleton] at hrs
    cases hrs

theorem witness_CanonicalMemoriesThatReadAlikeAreEqual :
    Memory.wf [(0x1001, 1)] ∧ Memory.wf ([(0x1001, 1), (0x1002, 3)] : Memory) ∧
      ∀ a, Memory.read [(0x1001, 1)] a = Memory.read (Memory.write [(0x1001, 1), (0x1002, 3)] 0x1002 0) a :=
  ⟨by decide, by decide, fun _ => rfl⟩

theorem witness_StepKeepsTheInvariant :
    (on (pend latched .present) .engine).Inv ∧ ∃ t, step (on (pend latched .present) .engine) = .next t :=
  ⟨latched_inv, (of_nextIs (p := fun _ => true) (by decide +kernel)).imp fun _ h => h.1⟩

end Sys2Proof.Tests
end

/-! ### Sizes: next_pow2 is the least power of two above its argument (R9) -/

namespace Sys2Proof.Machine

theorem nextPow2_of_le_one {x : Nat} (h : x ≤ 1) : nextPow2 x = 1 := if_pos h

theorem nextPow2_of_one_lt {x : Nat} (h : 1 < x) : nextPow2 x = 2 ^ (Nat.log2 (x - 1) + 1) :=
  if_neg (Nat.not_le.2 h)

theorem exists_nextPow2_eq_two_pow (x : Nat) : ∃ k, nextPow2 x = 2 ^ k := by
  rcases le_or_gt x 1 with h | h
  · exact ⟨0, nextPow2_of_le_one h⟩
  · exact ⟨_, nextPow2_of_one_lt h⟩

/-- Above 1 the exponent is that of the leading bit of `x - 1`, plus one: `x ≤ 2 ^ k` puts that bit below bit `k`. -/
theorem nextPow2_le_two_pow {x k : Nat} (hx : x ≤ 2 ^ k) : nextPow2 x ≤ 2 ^ k := by
  rcases le_or_gt x 1 with h | h
  · rw [nextPow2_of_le_one h]
    exact Nat.one_le_two_pow
  · have hlog : Nat.log2 (x - 1) < k := (Nat.log2_lt (by omega)).2 (by omega)
    rw [nextPow2_of_one_lt h]
    exact Nat.pow_le_pow_right Nat.two_pos hlog

/-- Settles O2: the exponent read off the definition, the upper bound of `le_nextPow2`, and minimality. -/
theorem nextPow2IsTheLeastPower : Obligations.NextPow2IsTheLeastPower := fun x _ =>
  ⟨exists_nextPow2_eq_two_pow x, le_nextPow2 x, fun _ => nextPow2_le_two_pow⟩

end Sys2Proof.Machine

/-! ### Parameters: the configuration is legal whatever its OPEN values are (R6, R7) -/

namespace Sys2Proof.Config

theorem one_le_numGammaLevels : 1 ≤ numGammaLevels := Nat.succ_pos _

theorem numGammaLevels_le : numGammaLevels ≤ 256 := gammaTopLevel.isLt

@[simp] theorem gammaLut_zero (v : Byte) : gammaLut 0 v = v := if_pos rfl

/-- Settles O1: 512 divides 2^32 by computation; the bounds on the gamma levels hold for every value of the OPEN
`gammaTopLevel`, and level 0 never reaches the OPEN table. -/
theorem configurationIsLegal : Obligations.ConfigurationIsLegal :=
  ⟨by decide, one_le_numGammaLevels, numGammaLevels_le, gammaLut_zero⟩

end Sys2Proof.Config

/-! ### What one step can do, by the agent that moves (R20, R32, R72; log entry 2) -/

namespace Sys2Proof.Machine

/-- What the commands compute: the registers, flags, geometry and tables that no host access writes (R43, R217). -/
structure State.KeepsResults (s t : State) : Prop where
  gamma : t.gamma = s.gamma
  frameCount : t.frameCount = s.frameCount
  nearest : t.nearest = s.nearest
  active : t.active = s.active
  initFlag : t.initFlag = s.initFlag
  geom : t.geom = s.geom
  ct : t.ct = s.ct
  p565 : t.p565 = s.p565

/-- The configuration registers, which only the host writes (R120 to R123, R180). -/
structure State.KeepsConfig (s t : State) : Prop where
  width : t.width = s.width
  height : t.height = s.height
  logBase : t.logBase = s.logBase
  physBase : t.physBase = s.physBase
  palSrc : t.palSrc = s.palSrc

theorem State.KeepsResults.trans {s t u : State} (h : s.KeepsResults t) (k : t.KeepsResults u) : s.KeepsResults u :=
  ⟨k.gamma.trans h.gamma, k.frameCount.trans h.frameCount, k.nearest.trans h.nearest, k.active.trans h.active,
    k.initFlag.trans h.initFlag, k.geom.trans h.geom, k.ct.trans h.ct, k.p565.trans h.p565⟩

theorem State.keepsResults_takeEvent (s : State) : s.KeepsResults s.takeEvent :=
  ⟨rfl, rfl, rfl, rfl, rfl, rfl, rfl, rfl⟩

theorem State.keepsResults_respond (s : State) (r : Response) : s.KeepsResults (s.respond r) :=
  ⟨rfl, rfl, rfl, rfl, rfl, rfl, rfl, rfl⟩

/-- Everything another agent, a late write or the platform can do: memory, the answer, the bus map, the draws, and the
raced addresses of the pending command. -/
theorem runEvent_world {e : Event} {s t : State} (hn : e ≠ .engine) (hr : e ≠ .reset) (ha : ∀ a, e ≠ .access a)
    (h : runEvent e s = .next t) :
    ∃ m q r b n, (s.mem.wf → m.wf) ∧ q.isSome = s.busy ∧
      t = { s with mem := m, pending := q, resp := r, bus := b, fresh := n } := by
  cases e with
  | access a => exact absurd rfl (ha a)
  | engine => exact absurd rfl hn
  | reset => exact absurd rfl hr
  | agentWrite a v =>
    cases h
    exact ⟨_, _, _, _, _, fun hm => Memory.write_wf hm _ _, s.busy_agentWrites _ v, rfl⟩
  | agentRead a =>
    cases h
    unfold State.agentReads
    split <;> exact ⟨_, _, _, _, _, id, rfl, rfl⟩
  | lateWrite a =>
    cases h
    unfold State.lateWrites
    split
    · exact ⟨_, _, _, _, _, fun hm => Memory.write_wf hm _ _, s.busy_agentWrites _ _, rfl⟩
    · exact ⟨_, _, _, _, _, id, rfl, rfl⟩
  | bus regions => cases h; exact ⟨_, _, _, _, _, id, rfl, rfl⟩

/-- Everything a step can do: reset, an idle engine, a completion, a host access, or the world outside. -/
theorem step_cases {s t : State} (h : step s = .next t) :
    (s.nextEvent = .reset ∧ t = s.takeEvent.resetInput) ∨
    (s.nextEvent = .engine ∧ s.pending = none ∧ t = s.takeEvent) ∨
    (∃ p, s.nextEvent = .engine ∧ s.pending = some p ∧ exec p.op.toInstr s.takeEvent = .next t) ∨
    (∃ a, s.nextEvent = .access a ∧ runAccess a s.takeEvent = .next t) ∨
    (s.nextEvent ≠ .engine ∧ (∀ a, s.nextEvent ≠ .access a) ∧
      ∃ m q r b n, (s.mem.wf → m.wf) ∧ q.isSome = s.busy ∧
        t = { s.takeEvent with mem := m, pending := q, resp := r, bus := b, fresh := n }) := by
  have hrun := h
  rw [step_eq] at hrun
  by_cases hr : s.nextEvent = .reset
  · rw [hr] at hrun; cases hrun; exact .inl ⟨hr, rfl⟩
  by_cases hn : s.nextEvent = .engine
  · cases hp : s.pending with
    | none => rw [step_idle hn hp] at h; cases h; exact .inr (.inl ⟨hn, rfl, rfl⟩)
    | some p => rw [step_engine hn hp] at h; exact .inr (.inr (.inl ⟨p, hn, rfl, h⟩))
  by_cases ha : ∃ a, s.nextEvent = .access a
  · obtain ⟨a, ha⟩ := ha
    rw [ha] at hrun
    exact .inr (.inr (.inr (.inl ⟨a, ha, hrun⟩)))
  have ha : ∀ a, s.nextEvent ≠ .access a := fun a hc => ha ⟨a, hc⟩
  exact .inr (.inr (.inr (.inr ⟨hn, ha, runEvent_world hn hr ha hrun⟩)))

/-- The engine with a command pending takes that command's completion step. -/
theorem State.completing_of_pending {s : State} {p : Pending} (he : s.nextEvent = .engine) (hp : s.pending = some p)
    {op : PendingOp} (hop : p.op = op) : s.Completing op := ⟨he, p.raced, hop ▸ hp⟩

/-! ### Host accesses -/

/-- The issue of a command word touches no result, configuration register or memory (R210, R211, R233). -/
theorem issue_keeps {w : Word} {s t : State} (h : issue w s = .next t) :
    s.KeepsResults t ∧ s.KeepsConfig t ∧ t.mem = s.mem ∧ t.flip = s.flip := by
  obtain ⟨code, rfl⟩ | rfl | ⟨_, _, -, rfl⟩ | ⟨-, _, rfl⟩ := issue_cases h <;>
    exact ⟨⟨rfl, rfl, rfl, rfl, rfl, rfl, rfl, rfl⟩, ⟨rfl, rfl, rfl, rfl, rfl⟩, rfl, rfl⟩

/-- The issue of a command word keeps the pending command, or makes one pending where none was (R233). -/
theorem issue_pending {w : Word} {s t : State} (h : issue w s = .next t) :
    t.pending = s.pending ∨ (s.pending = none ∧ ∃ op, t.pending = some { op := op, raced := [] }) := by
  obtain ⟨code, rfl⟩ | rfl | ⟨_, _, -, rfl⟩ | ⟨hp, op, rfl⟩ := issue_cases h
  · exact .inl rfl
  · exact .inl rfl
  · exact .inl rfl
  · exact .inr ⟨hp, op, rfl⟩

/-- STAT_DUE changes at issue only by an ACK with CLR_STAT (R211). -/
theorem issue_statDue {w : Word} {s t : State} (h : issue w s = .next t) (hne : t.statDue ≠ s.statDue) :
    ∃ clrErr, w = ackWord true clrErr := by
  obtain ⟨code, rfl⟩ | rfl | ⟨clrStat, clrErr, hd, rfl⟩ | ⟨-, _, rfl⟩ := issue_cases h
  · exact absurd rfl hne
  · exact absurd rfl hne
  · cases clrStat with
    | false => exact absurd rfl hne
    | true => exact ⟨clrErr, ackWord_of_decode hd⟩
  · exact absurd rfl hne

/-- A host access touches no result and no memory (R217, R219). -/
theorem runAccess_keeps {a : Access} {s t : State} (h : runAccess a s = .next t) :
    s.KeepsResults t ∧ t.mem = s.mem ∧ t.flip = s.flip := by
  obtain ⟨r, rfl⟩ | ⟨o, v, -, hi | ⟨-, rfl⟩ | ⟨-, rfl⟩ | ⟨-, _, rfl⟩ | ⟨-, _, rfl⟩ | ⟨-, _, rfl⟩⟩ := runAccess_cases h
  case inr.inl => -- the write of CMD
    obtain ⟨hk, -, hm, hf⟩ := issue_keeps hi.2
    exact ⟨(s.keepsResults_respond _).trans hk, hm, hf⟩
  all_goals exact ⟨⟨rfl, rfl, rfl, rfl, rfl, rfl, rfl, rfl⟩, rfl, rfl⟩

/-- A host access issues a command word, or leaves PENDING, ERR and STAT_DUE. -/
theorem runAccess_issue_or_keeps {a : Access} {s t : State} (h : runAccess a s = .next t) :
    (∃ w, Event.access a = cmdWrite w ∧ issue w (s.respond .written) = .next t) ∨
      (t.pending = s.pending ∧ t.err = s.err ∧ t.statDue = s.statDue) := by
  obtain ⟨r, rfl⟩ | ⟨o, v, rfl, ⟨rfl, hi⟩ | ⟨-, rfl⟩ | ⟨-, rfl⟩ | ⟨-, _, rfl⟩ | ⟨-, _, rfl⟩ | ⟨-, _, rfl⟩⟩ :=
    runAccess_cases h
  case inr.inl => exact .inl ⟨v, rfl, hi⟩ -- the write of CMD
  all_goals exact .inr ⟨rfl, rfl, rfl⟩

/-! ### Completions -/

/-- A completion writes no configuration register (R120 to R123, R180). -/
theorem completion_keepsConfig {s t : State} {p : Pending} (h : exec p.op.toInstr s = .next t) : s.KeepsConfig t := by
  obtain rfl | ⟨_, -, rfl⟩ | ⟨-, -, _, -, rfl⟩ | ⟨-, -, rfl⟩ | ⟨-, -, -, rfl⟩ | ⟨-, -, -, rfl⟩ | ⟨_, -, rfl⟩ |
    ⟨_, -, rfl⟩ | ⟨_, -, -, rfl⟩ | ⟨_, _, _, -, rfl⟩ := completion_cases h <;>
    exact ⟨by simp, by simp, by simp, by simp, by simp⟩

/-- A completion waits or ends its command (R32, R246). -/
theorem completion_pending {s t : State} {p : Pending} (h : exec p.op.toInstr s = .next t) :
    t = s ∨ t.pending = none := by
  obtain rfl | ⟨_, -, rfl⟩ | ⟨-, -, _, -, rfl⟩ | ⟨-, -, rfl⟩ | ⟨-, -, -, rfl⟩ | ⟨-, -, -, rfl⟩ | ⟨_, -, rfl⟩ |
    ⟨_, -, rfl⟩ | ⟨_, -, -, rfl⟩ | ⟨_, _, _, -, rfl⟩ := completion_cases h
  case inl => exact .inl rfl -- no response yet
  all_goals exact .inr rfl

/-- Which command writes which result (R43 and the tables of R25 to R39). -/
structure PendingOp.Writes (op : PendingOp) (s t : State) : Prop where
  gamma : t.gamma ≠ s.gamma → ∃ l, op = .setGamma l
  frameCount : t.frameCount ≠ s.frameCount → (∃ w h lb pb, op = .init w h lb pb) ∨ op = .present
  nearest : t.nearest ≠ s.nearest → ∃ r g b, op = .nearest r g b
  active : t.active ≠ s.active → (∃ w h lb pb, op = .init w h lb pb) ∨ op = .present
  initFlag : t.initFlag ≠ s.initFlag → (∃ w h lb pb, op = .init w h lb pb) ∨ op = .shutdown
  statDue : t.statDue ≠ s.statDue → (∃ w h lb pb, op = .init w h lb pb) ∨ (op = .present ∧ t.statDue = true)
  geom : t.geom ≠ s.geom → ∃ w h lb pb, op = .init w h lb pb
  tables : t.ct ≠ s.ct ∨ t.p565 ≠ s.p565 → ∃ ps, op = .setPalette ps

/-- A frame only ever sets the trigger (R161). -/
theorem statDueAfter_changed {d : Bool} {count : Word} (h : statDueAfter d count ≠ d) : statDueAfter d count = true := by
  cases d with
  | false => simpa using h
  | true => exact absurd rfl h

/-- The completion of a command writes that command's results only. -/
theorem completion_writes {s t : State} {p : Pending} (h : exec p.op.toInstr s = .next t) : p.op.Writes s t := by
  obtain rfl | ⟨_, -, rfl⟩ | ⟨hop, -, _, -, rfl⟩ | ⟨hop, -, rfl⟩ | ⟨-, -, -, rfl⟩ | ⟨hop, -, -, rfl⟩ | ⟨_, -, rfl⟩ |
    ⟨ps, hop, rfl⟩ | ⟨l, hop, -, rfl⟩ | ⟨r, g, b, hop, rfl⟩ := completion_cases h
  case inr.inr.inr.inr.inr.inl => -- the PRESENT that flips
    constructor
    case statDue => exact fun hd => .inr ⟨hop, statDueAfter_changed hd⟩
    all_goals simp [hop]
  all_goals constructor <;> simp [*]

/-- The memory after a completion: only PRESENT with a geometry leaves another (R67, R151). -/
theorem completion_mem {s t : State} {p : Pending} (h : exec p.op.toInstr s = .next t) :
    t.mem = s.mem ∨ (p.op = .present ∧ s.initFlag = true ∧ (t.mem = s.spoiled ∨ t.mem = s.presented)) := by
  obtain rfl | ⟨_, -, rfl⟩ | ⟨-, -, _, -, rfl⟩ | ⟨-, -, rfl⟩ | ⟨hop, hi, -, rfl⟩ | ⟨hop, hi, -, rfl⟩ | ⟨_, -, rfl⟩ |
    ⟨_, -, rfl⟩ | ⟨_, -, -, rfl⟩ | ⟨_, _, _, -, rfl⟩ := completion_cases h
  case inr.inr.inr.inr.inl => exact .inr ⟨hop, hi, .inl rfl⟩ -- a PRESENT with a bus error
  case inr.inr.inr.inr.inr.inl => exact .inr ⟨hop, hi, .inr rfl⟩ -- the PRESENT that flips
  all_goals exact .inl (by simp)

/-- The flip output of a completion: asserted exactly by the PRESENT that toggles ACTIVE (R41, R158). -/
theorem completion_flip {s t : State} {p : Pending} (hf : s.flip = false) (h : exec p.op.toInstr s = .next t) :
    t.flip = true ↔ p.op = .present ∧ t.active = !s.active := by
  obtain rfl | ⟨_, -, rfl⟩ | ⟨⟨_, _, _, _, hop⟩, -, _, -, rfl⟩ | ⟨-, -, rfl⟩ | ⟨-, -, -, rfl⟩ | ⟨hop, -, -, rfl⟩ |
    ⟨_, -, rfl⟩ | ⟨_, -, rfl⟩ | ⟨_, -, -, rfl⟩ | ⟨_, _, _, -, rfl⟩ := completion_cases h
  case inr.inr.inl => simp [hf, hop] -- INIT, which starts with half 0 active
  case inr.inr.inr.inr.inr.inl => simp [hop] -- the PRESENT that flips
  all_goals simp [hf]

/-! ### Steps -/

/-- A step other than reset completes a command, or no command is in its completion step, and results and flip stay. -/
theorem step_completes_or_keeps {s t : State} (h : step s = .next t) (hr : s.nextEvent ≠ .reset) :
    (∃ p, s.nextEvent = .engine ∧ s.pending = some p ∧ exec p.op.toInstr s.takeEvent = .next t) ∨
    ((∀ op, ¬ s.Completing op) ∧ s.KeepsResults t ∧ t.flip = false ∧ (s.mem.wf → t.mem.wf)) := by
  obtain ⟨hc, -⟩ | ⟨-, hp, rfl⟩ | hc | ⟨a, he, ha⟩ | ⟨hn, -, m, q, r, b, n, hm, -, rfl⟩ := step_cases h
  · exact absurd hc hr
  · refine .inr ⟨fun op hc => ?_, s.keepsResults_takeEvent, rfl, id⟩
    obtain ⟨-, raced, hs⟩ := hc
    cases hp.symm.trans hs
  · exact .inl hc
  · obtain ⟨hk, hm, hf⟩ := runAccess_keeps ha
    exact .inr ⟨fun op hc => (nomatch he.symm.trans hc.1), s.keepsResults_takeEvent.trans hk, hf, fun hw => hm ▸ hw⟩
  · exact .inr ⟨fun op hc => hn hc.1, ⟨rfl, rfl, rfl, rfl, rfl, rfl, rfl, rfl⟩, rfl, hm⟩

end Sys2Proof.Machine

/-! ### The invariant (R31, R37, R38) -/

namespace Sys2Proof.Machine

/-- The invariant speaks of results and memory only. -/
theorem State.Inv.of_keepsResults {s t : State} (h : s.Inv) (hk : s.KeepsResults t) (hm : t.mem.wf) : t.Inv :=
  ⟨hm, hk.gamma ▸ h.gammaLevel, fun hi => hk.geom ▸ h.geometry (hk.initFlag ▸ hi), hk.ct ▸ h.alpha⟩

theorem State.Inv.takeEvent {s : State} (h : s.Inv) : s.takeEvent.Inv :=
  h.of_keepsResults s.keepsResults_takeEvent h.memory

/-- A completion keeps the invariant: INIT latches a geometry it checked, SET_GAMMA a level it checked, SET_PALETTE
entries with alpha 0, and PRESENT writes memory byte by byte. -/
theorem State.Inv.completion {s t : State} {p : Pending} (h : s.Inv) (hx : exec p.op.toInstr s = .next t) : t.Inv := by
  obtain rfl | ⟨_, -, rfl⟩ | ⟨-, -, g, hg, rfl⟩ | ⟨-, -, rfl⟩ | ⟨-, -, -, rfl⟩ | ⟨-, -, -, rfl⟩ | ⟨_, -, rfl⟩ |
    ⟨_, -, rfl⟩ | ⟨_, -, hl, rfl⟩ | ⟨_, _, _, -, rfl⟩ := completion_cases hx
  · exact h
  · exact ⟨h.memory, h.gammaLevel, h.geometry, h.alpha⟩
  · exact ⟨h.memory, h.gammaLevel, fun _ => (geometryOf_ok hg).1, h.alpha⟩
  · exact ⟨h.memory, h.gammaLevel, nofun, h.alpha⟩
  · exact h.of_keepsResults (by constructor <;> simp) (by simpa using State.spoiled_wf h.memory)
  · exact ⟨State.presented_wf h.memory, h.gammaLevel, h.geometry, h.alpha⟩
  · exact h.of_keepsResults (by constructor <;> simp) (by simpa using h.memory)
  · refine ⟨by simpa using h.memory, by simpa using h.gammaLevel, by simpa using h.geometry, fun i => ?_⟩
    simpa using s.stagedColor_alpha i
  · exact ⟨h.memory, hl, h.geometry, h.alpha⟩
  · exact ⟨h.memory, h.gammaLevel, h.geometry, h.alpha⟩

/-- Reset meets the invariant with any memory in canonical form: level 0 always exists, and no geometry is latched. -/
theorem State.inv_of_resetValues {t : State} (h : t.ResetValues) (hm : t.mem.wf) : t.Inv := by
  obtain ⟨-, hi, -, -⟩ := h.flags
  refine ⟨hm, ?_, fun hl => absurd (hi.symm.trans hl) nofun, fun i => ?_⟩
  · rw [h.gamma]
    exact Config.one_le_numGammaLevels
  · rw [h.colors]
    rfl

/-! ### Reset (R44, R260, R261) -/

/-- Settles O7: the fields are literal, the tables read 0 at every index, and with no geometry the outputs are 0. -/
theorem resetStateHoldsTheResetValues : Obligations.ResetStateHoldsTheResetValues :=
  ⟨rfl, rfl, ⟨rfl, rfl, rfl, rfl⟩, ⟨rfl, rfl⟩, ⟨rfl, rfl, rfl⟩, rfl, rfl, rfl, ⟨rfl, rfl, rfl, rfl, rfl, rfl⟩,
    Table.get_zero, Table.get_zero, ⟨rfl, rfl, rfl, rfl, rfl⟩⟩

/-- The reset input leaves the ICC as `State.reset` has it; only memory and the model's own fields differ. -/
theorem State.resetInput_resetValues (s : State) : s.resetInput.ResetValues :=
  let h := resetStateHoldsTheResetValues
  ⟨h.pending, h.status, h.flags, h.size, h.bases, h.gamma, h.frameCount, h.nearest, h.geometry, h.colors, h.shadow,
    h.outputs⟩

/-- Memory after reset: as before, but for the bytes of the PRESENT that it aborts (R261). -/
theorem State.read_resetInput {s : State} (hm : s.mem.wf) {a : Nat}
    (ha : s.presenting = false ∨ s.targetSpan.contains a = false) : s.resetInput.mem.read a = s.mem.read a := by
  rw [State.resetInput_mem, State.presentTarget]
  cases hp : s.presenting with
  | false => rfl
  | true =>
    obtain hp' | ht := ha
    · exact absurd (hp.symm.trans hp') nofun
    · simp [State.read_scrambled hm, ht]

theorem State.resetInput_wf {s : State} (hm : s.mem.wf) : s.resetInput.mem.wf := by
  rw [State.resetInput_mem]
  split
  · exact State.scrambled_wf hm
  · exact hm

/-- Settles O59: the reset values meet the invariant, and no cell is listed. -/
theorem resetMeetsTheInvariant : Obligations.ResetMeetsTheInvariant :=
  State.inv_of_resetValues resetStateHoldsTheResetValues (by decide)

theorem step_reset {s : State} (he : s.nextEvent = .reset) : step s = .next s.takeEvent.resetInput := by
  rw [step_eq, he]
  rfl

/-- Settles O6: one step of reset, its values, and the bytes it leaves. -/
theorem resetInputRestoresTheResetValues : Obligations.ResetInputRestoresTheResetValues := by
  intro s es hm hbox
  refine ⟨_, step_reset (nextEvent_cons hbox), ?_, State.resetInput_resetValues _, fun a ha => ?_⟩
  · simp [hbox]
  · exact State.read_resetInput (s := s.takeEvent) hm ha

/-- Settles O58: a completion keeps the invariant, reset establishes it, and every other step keeps the results and the
canonical form of memory. -/
theorem stepKeepsTheInvariant : Obligations.StepKeepsTheInvariant := by
  intro s t h hstep
  by_cases hr : s.nextEvent = .reset
  · rw [step_reset hr] at hstep
    cases hstep
    exact State.inv_of_resetValues (State.resetInput_resetValues _) (State.resetInput_wf (s := s.takeEvent) h.memory)
  · obtain ⟨p, -, -, hx⟩ | ⟨-, hk, -, hm⟩ := step_completes_or_keeps hstep hr
    · exact h.takeEvent.completion hx
    · exact h.of_keepsResults hk (hm h.memory)

/-! ### Memory safety (R42, R67, R77, R156) -/

/-- The bytes a PRESENT changes, whether it converts or meets a bus error: target bytes, and raced bytes of the same
half (R67, R77, R162). -/
theorem State.present_frame {s : State} (hg : s.geom.Legal) (hm : s.mem.wf) {m : Memory} {a : Nat}
    (h : m = s.spoiled ∨ m = s.presented) (hne : m.read a ≠ s.mem.read a) :
    s.targetSpan.contains a = true ∨ (a ∈ s.raced ∧ s.inactiveSpan.contains a = true) := by
  by_contra hc
  obtain ⟨ht, hrace⟩ := not_or.1 hc
  refine hne ?_
  obtain rfl | rfl := h
  · rw [State.read_spoiled hg hm, if_neg (not_or.2 ⟨hrace, ht⟩)]
  · rw [State.read_presented hg hm, if_neg hrace, if_neg ht]

/-- Settles O44: a host access keeps memory, and so does every completion but that of a PRESENT with a geometry, whose
bytes lie in the inactive half; a legal geometry keeps that half apart from the active one and the surface. -/
theorem onlyTheInactiveHalfIsWritten : Obligations.OnlyTheInactiveHalfIsWritten := by
  intro s t a hinv hev hstep hne
  obtain ⟨hr, -⟩ | ⟨-, -, rfl⟩ | ⟨p, he, hp, hx⟩ | ⟨_, -, ha⟩ | ⟨hn, hna, -⟩ := step_cases hstep
  · obtain he | ⟨x, he⟩ := hev <;> cases hr.symm.trans he
  · exact absurd rfl hne
  · obtain hm | ⟨hop, hi, hm⟩ := completion_mem hx
    · exact absurd (congrArg (·.read a) hm) hne
    have hg : s.geom.Legal := hinv.geometry hi
    have hin := State.present_frame (s := s) hg hinv.memory hm hne
    have half : s.inactiveSpan.contains a = true := hin.elim (State.target_inactive hg) And.right
    exact ⟨State.completing_of_pending he hp hop, hi, hin, State.inactive_not_active half,
      State.inactive_not_source hg half⟩
  · exact absurd (congrArg (·.read a) (runAccess_keeps ha).2.1) hne
  · obtain he | ⟨x, he⟩ := hev
    · exact absurd he hn
    · exact absurd he (hna x)

end Sys2Proof.Machine

/-! ### Who writes what (R26 to R43) -/

namespace Sys2Proof.Machine

/-- A configuration register changes only by a write at its own offset; reset apart (R120 to R123, R180). -/
theorem step_configWriters {s t : State} (h : step s = .next t) (hr : s.nextEvent ≠ .reset) :
    (t.width ≠ s.width → s.Writing 0x008#12) ∧ (t.height ≠ s.height → s.Writing 0x00C#12) ∧
    (t.logBase ≠ s.logBase → s.Writing 0x010#12 ∨ s.Writing 0x014#12) ∧
    (t.physBase ≠ s.physBase → s.Writing 0x018#12 ∨ s.Writing 0x01C#12) ∧
    (t.palSrc ≠ s.palSrc → s.Writing 0x020#12 ∨ s.Writing 0x024#12) := by
  obtain ⟨hc, -⟩ | ⟨-, -, rfl⟩ | ⟨p, -, -, hx⟩ | ⟨a, he, ha⟩ | ⟨-, -, _, _, _, _, _, -, -, rfl⟩ := step_cases h
  case inl => exact absurd hc hr -- reset
  case inr.inr.inl => -- a completion
    have hk := completion_keepsConfig hx
    exact ⟨(absurd hk.width ·), (absurd hk.height ·), (absurd hk.logBase ·), (absurd hk.physBase ·),
      (absurd hk.palSrc ·)⟩
  case inr.inr.inr.inl => -- a host access
    obtain ⟨_, rfl⟩ | ⟨o, v, rfl, hw⟩ := runAccess_cases ha
    · simp
    have hwr : s.Writing o := ⟨v, he⟩
    obtain ⟨-, hi⟩ | ⟨rfl, rfl⟩ | ⟨rfl, rfl⟩ | ⟨ho, _, rfl⟩ | ⟨ho, _, rfl⟩ | ⟨ho, _, rfl⟩ := hw
    · obtain ⟨-, hk, -, -⟩ := issue_keeps hi
      exact ⟨(absurd hk.width ·), (absurd hk.height ·), (absurd hk.logBase ·), (absurd hk.physBase ·),
        (absurd hk.palSrc ·)⟩
    · simp [hwr]
    · simp [hwr]
    · have hlog := ho.imp (· ▸ hwr) (· ▸ hwr)
      simp [hlog]
    · have hphys := ho.imp (· ▸ hwr) (· ▸ hwr)
      simp [hphys]
    · have hpal := ho.imp (· ▸ hwr) (· ▸ hwr)
      simp [hpal]
  all_goals simp

/-- A pending operation that is some INIT completes as that INIT. -/
theorem State.Completing.of_init {s : State} {op : PendingOp} (hc : s.Completing op)
    (h : ∃ w h lb pb, op = .init w h lb pb) : ∃ w h lb pb, s.Completing (.init w h lb pb) := by
  obtain ⟨w, h, lb, pb, rfl⟩ := h
  exact ⟨w, h, lb, pb, hc⟩

/-- Settles O27: a completion writes its own results, every other step keeps them all, and the configuration registers
are the host's. -/
theorem registerWriters : Obligations.RegisterWriters := by
  intro s t hstep hr
  have hconfig := step_configWriters hstep hr
  obtain ⟨p, he, hp, hx⟩ | ⟨-, hk, -, -⟩ := step_completes_or_keeps hstep hr
  · have hc : ∀ {op}, p.op = op → s.Completing op := State.completing_of_pending he hp
    have hw := completion_writes hx
    refine ⟨fun hne => ?_, fun hne => ?_, fun hne => ?_, fun hne => ?_, fun hne => ?_, hconfig⟩
    · exact (hw.gamma hne).imp fun _ => hc
    · exact (hw.frameCount hne).imp (hc rfl).of_init hc
    · obtain ⟨r, g, b, hop⟩ := hw.nearest hne
      exact ⟨r, g, b, hc hop⟩
    · exact (hc rfl).of_init (hw.geom hne)
    · exact (hw.tables hne).imp fun _ => hc
  · exact ⟨(absurd hk.gamma ·), (absurd hk.frameCount ·), (absurd hk.nearest ·), (absurd hk.geom ·),
      fun hne => (hne.elim (· hk.ct) (· hk.p565)).elim, hconfig⟩

/-- BUSY after a completion that changes it: a pending command has ended (R32). -/
theorem completion_busy {s t : State} {p : Pending} (h : exec p.op.toInstr s = .next t) (hne : t.busy ≠ s.busy) :
    t.busy = false := by
  obtain rfl | hp := completion_pending h
  · exact absurd rfl hne
  · rw [State.busy, hp]
    rfl

/-- The issue of a command word only ever raises BUSY (R32, R233). -/
theorem issue_busy {w : Word} {s t : State} (h : issue w s = .next t) (hne : t.busy ≠ s.busy) : t.busy = true := by
  obtain hp | ⟨-, op, hp⟩ := issue_pending h
  · exact absurd (congrArg Option.isSome hp) hne
  · rw [State.busy, hp]
    rfl

/-- Who changes BUSY (R32); reset apart. -/
theorem step_busy {s t : State} (h : step s = .next t) (hr : s.nextEvent ≠ .reset) (hne : t.busy ≠ s.busy) :
    (∃ op, s.Completing op ∧ t.busy = false) ∨ (s.Writing 0x000#12 ∧ t.busy = true) := by
  obtain ⟨hc, -⟩ | ⟨-, -, rfl⟩ | ⟨p, he, hp, hx⟩ | ⟨a, he, ha⟩ | ⟨-, -, _, _, _, _, _, -, hq, rfl⟩ := step_cases h
  · exact absurd hc hr
  · exact absurd rfl hne
  · exact .inl ⟨p.op, State.completing_of_pending he hp rfl, completion_busy hx hne⟩
  · obtain ⟨w, hw, hi⟩ | ⟨hp, -, -⟩ := runAccess_issue_or_keeps ha
    · exact .inr ⟨⟨w, he.trans hw⟩, issue_busy hi hne⟩
    · exact absurd (congrArg Option.isSome hp) hne
  · exact absurd hq hne

/-- Who changes STAT_DUE (R161, R211); reset apart. -/
theorem step_statDue {s t : State} (h : step s = .next t) (hr : s.nextEvent ≠ .reset) (hne : t.statDue ≠ s.statDue) :
    (∃ w h lb pb, s.Completing (.init w h lb pb)) ∨ (s.Completing .present ∧ t.statDue = true) ∨
      ∃ clrErr, s.nextEvent = cmdWrite (ackWord true clrErr) := by
  obtain ⟨hc, -⟩ | ⟨-, -, rfl⟩ | ⟨p, he, hp, hx⟩ | ⟨a, he, ha⟩ | ⟨-, -, _, _, _, _, _, -, -, rfl⟩ := step_cases h
  · exact absurd hc hr
  · exact absurd rfl hne
  · obtain hop | ⟨hop, hd⟩ := (completion_writes hx).statDue hne
    · exact .inl ((State.completing_of_pending he hp rfl).of_init hop)
    · exact .inr (.inl ⟨State.completing_of_pending he hp hop, hd⟩)
  · obtain ⟨w, hw, hi⟩ | ⟨-, -, hd⟩ := runAccess_issue_or_keeps ha
    · obtain ⟨clrErr, rfl⟩ := issue_statDue hi hne
      exact .inr (.inr ⟨clrErr, he.trans hw⟩)
    · exact absurd hd hne
  · exact absurd rfl hne

/-- Who changes ERR, and to what (R231, R233, R234); reset apart. -/
theorem step_err {s t : State} (h : step s = .next t) (hr : s.nextEvent ≠ .reset) (hne : t.err ≠ s.err) :
    (s.err = .noError ∧ t.pending = none ∧ ∃ op, s.Completing op ∧ t.err ∈ op.raises) ∨
    (s.err = .noError ∧ s.Writing 0x000#12 ∧ (t.err = .eopcode ∨ (t.err = .ebusy ∧ s.pending ≠ none))) ∨
    (t.err = .noError ∧ ∃ clrStat, s.nextEvent = cmdWrite (ackWord clrStat true)) := by
  obtain ⟨hc, -⟩ | ⟨-, -, rfl⟩ | ⟨p, he, hp, hx⟩ | ⟨a, he, ha⟩ | ⟨-, -, _, _, _, _, _, -, -, rfl⟩ := step_cases h
  · exact absurd hc hr
  · exact absurd rfl hne
  · obtain hsame | ⟨h0, ht, hcode⟩ := completion_err hx
    · exact absurd hsame hne
    · exact .inl ⟨h0, ht, p.op, State.completing_of_pending he hp rfl, hcode⟩
  · obtain ⟨w, hw, hi⟩ | ⟨-, hsame, -⟩ := runAccess_issue_or_keeps ha
    · obtain hsame | ⟨h0, hcode⟩ | ⟨ht, clrStat, rfl⟩ := issue_err hi
      · exact absurd hsame hne
      · exact .inr (.inl ⟨h0, ⟨w, he.trans hw⟩, hcode⟩)
      · exact .inr (.inr ⟨ht, clrStat, he.trans hw⟩)
    · exact absurd hsame hne
  · exact absurd rfl hne

/-- Settles O26: INIT and ACTIVE are results of completions; STAT_DUE, BUSY and ERR have their writers said above. -/
theorem statusFlagWriters : Obligations.StatusFlagWriters := by
  intro s t hstep hr
  refine and_assoc.1 ⟨?_, step_statDue hstep hr, step_busy hstep hr, step_err hstep hr⟩
  obtain ⟨p, he, hp, hx⟩ | ⟨-, hk, -, -⟩ := step_completes_or_keeps hstep hr
  · have hc : ∀ {op}, p.op = op → s.Completing op := State.completing_of_pending he hp
    have hw := completion_writes hx
    exact ⟨fun hne => (hw.initFlag hne).imp (hc rfl).of_init hc, fun hne => (hw.active hne).imp (hc rfl).of_init hc⟩
  · exact ⟨(absurd hk.initFlag ·), (absurd hk.active ·)⟩

/-! ### STATUS and the outputs (R25, R41, R212) -/

/-- The fields of a word packed as STATUS is (R212). -/
theorem packedStatus_fields : ∀ (code : BitVec 4) (statDue init active busy : Bool),
    let w : Word := 0#24 ++ code ++ BitVec.ofBool statDue ++ BitVec.ofBool init ++ BitVec.ofBool active ++
      BitVec.ofBool busy
    w.getLsbD 0 = busy ∧ w.getLsbD 1 = active ∧ w.getLsbD 2 = init ∧ w.getLsbD 3 = statDue ∧
      w.extractLsb' 4 4 = code ∧ w.extractLsb' 8 24 = 0 := by
  decide +kernel

/-- Settles O16: STATUS is its fields side by side, and each error code is its number by definition. -/
theorem statusWordFields : Obligations.StatusWordFields :=
  ⟨fun _ => packedStatus_fields _ _ _ _ _, rfl, rfl, rfl, rfl, rfl, rfl, rfl, rfl, rfl⟩

/-- The outputs are functions of the results. -/
theorem State.KeepsResults.outputs {s t : State} (h : s.KeepsResults t) :
    t.outValid = s.outValid ∧ t.outActive = s.outActive ∧ t.outActiveBase = s.outActiveBase ∧
      t.outHalfSize = s.outHalfSize := by
  simp [State.outValid, State.outActive, State.outActiveBase, State.outHalfSize, State.activeBase, State.halfSize,
    h.initFlag, h.active, h.geom]

/-- A step other than reset that changes an output or asserts flip ends a command (R41). -/
theorem step_outputs {s t : State} (h : step s = .next t) (hr : s.nextEvent ≠ .reset)
    (hne : t.outValid ≠ s.outValid ∨ t.outActive ≠ s.outActive ∨ t.outActiveBase ≠ s.outActiveBase ∨
      t.outHalfSize ≠ s.outHalfSize ∨ t.outFlip = true) : (∃ op, s.Completing op) ∧ t.pending = none := by
  have kept : s.KeepsResults t → t.flip = false → (∃ op, s.Completing op) ∧ t.pending = none := by
    intro hk hf
    obtain ⟨h1, h2, h3, h4⟩ := hk.outputs
    simp [h1, h2, h3, h4, State.outFlip, hf] at hne
  obtain ⟨p, he, hp, hx⟩ | ⟨-, hk, hf, -⟩ := step_completes_or_keeps h hr
  · obtain rfl | hnone := completion_pending hx
    · exact kept s.keepsResults_takeEvent rfl
    · exact ⟨⟨p.op, State.completing_of_pending he hp rfl⟩, hnone⟩
  · exact kept hk hf

/-- A state completes no command but the pending one. -/
theorem State.Completing.op_eq {s : State} {op : PendingOp} {p : Pending} (h : s.Completing op)
    (hp : s.pending = some p) : p.op = op := by
  obtain ⟨-, raced, hs⟩ := h
  cases hp.symm.trans hs
  rfl

/-- The flip output of any step (R41, R158). -/
theorem step_flip {s t : State} (h : step s = .next t) :
    t.outFlip = true ↔ s.Completing .present ∧ t.active = !s.active := by
  by_cases hr : s.nextEvent = .reset
  · rw [step_reset hr] at h
    cases h
    exact ⟨nofun, fun hc => nomatch hr.symm.trans hc.1.1⟩
  obtain ⟨p, he, hp, hx⟩ | ⟨hnc, -, hf, -⟩ := step_completes_or_keeps h hr
  · have hop : s.Completing .present ↔ p.op = .present := ⟨fun h => h.op_eq hp, State.completing_of_pending he hp⟩
    rw [hop]
    exact completion_flip (s := s.takeEvent) rfl hx
  · exact ⟨fun ht => absurd (hf.symm.trans ht) nofun, fun hc => absurd hc.1 (hnc _)⟩

/-- Settles O54: the outputs as fields of STATUS, their change and flip step by step, and their reset values. -/
theorem outputsChangeAtCompletions : Obligations.OutputsChangeAtCompletions := by
  refine ⟨fun s => ?_, fun s t hstep => ⟨fun hne => ?_, step_flip hstep⟩, fun s t hr hstep => ?_⟩
  · obtain ⟨-, hactive, hinit, -⟩ := statusWordFields.1 s
    exact ⟨hinit.symm, hactive.symm, rfl, rfl⟩
  · by_cases hr : s.nextEvent = .reset
    · exact .inl hr
    · exact .inr (step_outputs hstep hr hne)
  · rw [step_reset hr] at hstep
    cases hstep
    exact (State.resetInput_resetValues _).outputs

end Sys2Proof.Machine

/-! ### The step around an operation (R20, R32, R72; log entries 2 to 4) -/

namespace Sys2Proof.Machine

theorem State.takeEvent_cons {s : State} {e : Event} {es : List Event} (h : s.inbox = e :: es) :
    s.takeEvent = { s with inbox := es, flip := false, resp := .none } := by
  simp [State.takeEvent, State.beginStep, h]

/-- The engine moves where no event waits or its own event is the oldest (log entry 2). -/
theorem nextEvent_engine {s : State} (h : s.inbox = [] ∨ ∃ es, s.inbox = .engine :: es) : s.nextEvent = .engine := by
  obtain h | ⟨es, h⟩ := h
  · exact nextEvent_nil h
  · exact nextEvent_cons h

/-- Settles O9: the event is taken, then the access or the engine acts. -/
theorem stepRunsTheDecodedOperation : Obligations.StepRunsTheDecodedOperation := by
  refine ⟨fun s a es i hbox hd => ?_, fun s p hbox hp => ?_, fun s hbox hp => ?_⟩
  · rw [step_access (nextEvent_cons hbox) hd, State.takeEvent_cons hbox]
  · exact step_engine (nextEvent_engine hbox) hp
  · exact step_idle (nextEvent_engine hbox) hp

/-- A command that samples a pending operation is accepted at issue, with those operands (R32, R233). -/
theorem issue_of_sample {w : Word} {c : Command} {op : PendingOp} {s : State} (hd : decodeCommand w = .ok c)
    (ho : Command.sample c s = some op) : issue w s = .next (s.accept op) := by
  unfold issue
  rw [hd]
  cases c <;> cases ho <;> rfl

/-- A command that is never pending acts at issue (R210, R211, R95). -/
theorem issue_of_sample_none {w : Word} {c : Command} {s : State} (hd : decodeCommand w = .ok c)
    (ho : Command.sample c s = none) : issue w s = exec c.toInstr s := by
  unfold issue
  rw [hd]
  cases c <;> cases ho <;> rfl

/-- The completion of a sampled command is the instruction of that command. -/
theorem toInstr_of_sample {c : Command} {op : PendingOp} {s : State} (ho : Command.sample c s = some op) :
    op.toInstr = c.toInstr := by
  cases c <;> cases ho <;> rfl

/-- A command word that stands accepted is completed by the next step. -/
theorem step_place_command {s : State} {w : Word} {c : Command} (hd : decodeCommand w = .ok c) :
    ∃ (r : Response) (q : Option Pending),
      step (s.place (.command w)) = exec c.toInstr { s with flip := false, resp := r, pending := q } ∧
      (r = .none ∨ r = .written) ∧
      (q = s.pending ∨ ∃ op, q = some { op := op, raced := [] } ∧ op.toInstr = c.toInstr) := by
  have hbind : ((decodeCommand w).toOption.bind fun c => Command.sample c s) = Command.sample c s := by rw [hd]; rfl
  rw [State.place, hbind]
  cases ho : Command.sample c s with
  | some op =>
    refine ⟨.none, some { op := op, raced := [] }, ?_, .inl rfl, .inr ⟨op, rfl, toInstr_of_sample ho⟩⟩
    rw [← toInstr_of_sample ho]
    exact step_engine (p := { op := op, raced := [] }) (nextEvent_cons (es := s.inbox) rfl) rfl
  | none =>
    refine ⟨.written, s.pending, ?_, .inr rfl, .inl rfl⟩
    refine (step_cmdWrite (nextEvent_cons rfl)).trans ?_
    refine (issue_of_sample_none hd ?_).trans rfl
    cases c <;> cases ho <;> rfl

/-- Settles O10: an access is decoded at the port; a command word stands accepted, or acts at its CMD write. -/
theorem placedInstructionRunsNext : Obligations.PlacedInstructionRunsNext := by
  intro s nbits w i hi
  obtain ⟨e, he⟩ : ∃ e, e = tableEncoding nbits w := ⟨_, rfl⟩
  have hd : decode e = .ok i := by
    cases hde : decode e with
    | error _ => simp [decodeTableWord, ← he, hde, Except.toOption] at hi
    | ok j => simpa [decodeTableWord, ← he, hde, Except.toOption] using hi
  rw [State.withFetchWord, ← he]
  cases e with
  | access a => exact ⟨.none, s.pending, step_access (nextEvent_cons rfl) hd, .inl rfl, .inl rfl⟩
  | command w =>
    cases hc : decodeCommand w with
    | error _ => simp [decode, hc, Except.map] at hd
    | ok c =>
      obtain rfl : c.toInstr = i := by simpa [decode, hc, Except.map] using hd
      exact step_place_command hc

/-! ### CMD writes (R32, R99, R233) -/

/-- Settles O22: issue makes a command pending only where none is. -/
theorem cmdWriteKeepsThePendingCommand : Obligations.CmdWriteKeepsThePendingCommand := by
  intro s t p w hp h
  obtain hkeep | ⟨hnone, -⟩ := issue_pending (s := s.respond .written) h
  · exact hkeep.trans hp
  · cases hp.symm.trans hnone

theorem setGammaWord_eq : ∀ level, setGammaWord level = encodeCommand (.setGamma level) := by decide +kernel

theorem nearestWord_eq (r g b : Byte) : nearestWord r g b = encodeCommand (.nearest r g b) := by
  unfold nearestWord encodeCommand
  apply BitVec.eq_of_getLsbD_eq
  intro i hi
  simp only [BitVec.getLsbD_or, BitVec.getLsbD_shiftLeft, BitVec.getLsbD_setWidth, BitVec.getLsbD_append]
  interval_cases i <;> simp

/-- An idle engine accepts the command a CMD write decodes to (R233). -/
theorem exec_wrCmd_idle {s : State} (hp : s.pending = none) {w : Word} {c : Command} {op : PendingOp}
    (hd : decodeCommand w = .ok c) (ho : Command.sample c s = some op) :
    exec (.wrCmd w) s = .next { s with resp := .written, pending := some { op := op, raced := [] } } := by
  have ho' : Command.sample c (s.respond .written) = some op := by cases c <;> exact ho
  refine (issue_of_sample hd ho').trans ?_
  rw [State.accept_idle (s := s.respond .written) hp]
  rfl

/-- Settles O19: each of the six words decodes to its command, which is accepted with its operands. -/
theorem idleEngineAcceptsCommands : Obligations.IdleEngineAcceptsCommands := by
  intro s l r g b hp
  refine ⟨exec_wrCmd_idle hp decodeCommand_init rfl, exec_wrCmd_idle hp decodeCommand_shutdown rfl,
    exec_wrCmd_idle hp decodeCommand_present rfl, exec_wrCmd_idle hp decodeCommand_setPalette rfl, ?_, ?_⟩
  · rw [setGammaWord_eq]
    exact exec_wrCmd_idle hp (decodeCommand_setGamma l) rfl
  · rw [nearestWord_eq]
    exact exec_wrCmd_idle hp (decodeCommand_nearest r g b) rfl

/-! ### Register reads (R23, R68, R102) -/

theorem State.registerValue_ct (s : State) {n : Nat} (h1 : 0x400 ≤ n) (h2 : n < 0x800) :
    s.registerValue n = s.ct.get (BitVec.ofNat 8 ((n - 0x400) / 4)) := by
  unfold State.registerValue
  iterate 15 rw [if_neg (by omega)]
  rw [if_pos ⟨h1, h2⟩]

theorem State.registerValue_p565 (s : State) {n : Nat} (h1 : 0x800 ≤ n) (h2 : n < 0xC00) :
    s.registerValue n = (s.p565.get (BitVec.ofNat 8 ((n - 0x800) / 4))).setWidth 32 := by
  unfold State.registerValue
  iterate 16 rw [if_neg (by omega)]
  rw [if_pos ⟨h1, h2⟩]

theorem State.registerValue_reserved (s : State) {o : BitVec 12} (h : isReservedOffset o = true) :
    s.registerValue o.toNat = 0 := by
  simp only [isReservedOffset, Bool.or_eq_true, Bool.and_eq_true, decide_eq_true_eq] at h
  unfold State.registerValue
  iterate 17 rw [if_neg (by omega)]

@[simp] theorem State.registerValue_takeEvent (s : State) (n : Nat) :
    s.takeEvent.registerValue n = s.registerValue n := rfl

/-- A read at an aligned offset answers what the register map gives there (R102). -/
theorem exec_decodeRead_registerValue {o : BitVec 12} (ha : o.toNat % 4 = 0) (s : State) :
    exec (decodeRead o) s = .next (s.respond (.data (s.registerValue o.toNat))) := by
  obtain ⟨⟨k, hk⟩, rfl⟩ | ⟨h1, h2, hs⟩ | ⟨h1, h2, hs⟩ | ⟨hr, hs⟩ := slotOf_cases o ha
  · interval_cases k <;> rfl
  · rw [decodeRead, hs, State.registerValue_ct s h1 h2]
    rfl
  · rw [decodeRead, hs, State.registerValue_p565 s h1 h2]
    rfl
  · rw [decodeRead, hs, State.registerValue_reserved s hr]
    rfl

/-- Settles O12: the step is the read at that offset, which answers and changes nothing. -/
theorem readsReturnTheRegisterMap : Obligations.ReadsReturnTheRegisterMap := by
  intro s a es hbox hsize ha hdir
  obtain ⟨o, size, dir⟩ := a
  obtain rfl : size = .b4 := hsize
  obtain rfl : dir = .read := hdir
  have hd : decode (readAccess o) = .ok (decodeRead o) := decode_read (by simpa [isAligned] using ha)
  rw [step_access (nextEvent_cons hbox) hd, exec_decodeRead_registerValue ha, State.registerValue_takeEvent,
    State.takeEvent_cons hbox]
  rfl

/-! ### Sampled operands (R32, R120, R180) -/

/-- The state with other values in the configuration registers. -/
def State.withConfig (s : State) (w h : Half) (lb pb ps : DWord) : State :=
  { s with width := w, height := h, logBase := lb, physBase := pb, palSrc := ps }

/-- A result with every next state changed by a function; a stop stays that stop. -/
def mapNext (f : State → State) : Result → Result
  | .next s => .next (f s)
  | .fault r => .fault r
  | .refused r => .refused r

section
variable {s : State} (w h : Half) (lb pb ps : DWord)

@[simp] theorem State.initFlag_withConfig : (s.withConfig w h lb pb ps).initFlag = s.initFlag := rfl

@[simp] theorem State.presentPort_withConfig : (s.withConfig w h lb pb ps).presentPort = s.presentPort := rfl

/-- A pending INIT works on the operands it sampled. -/
theorem State.initOperands_withConfig {p : Pending} (hp : s.pending = some p) (hop : p.op.toInstr = .init) :
    (s.withConfig w h lb pb ps).initOperands = s.initOperands := by
  obtain ⟨op, raced⟩ := p
  cases op <;> cases hop
  simp [State.initOperands, State.withConfig, hp]

/-- A pending SET_PALETTE reads the buffer it sampled. -/
theorem State.paletteSource_withConfig {p : Pending} (hp : s.pending = some p) (hop : p.op.toInstr = .setPalette) :
    (s.withConfig w h lb pb ps).paletteSource = s.paletteSource := by
  obtain ⟨op, raced⟩ := p
  cases op <;> cases hop
  simp [State.paletteSource, State.withConfig, hp]

theorem execInit_withConfig (ho : (s.withConfig w h lb pb ps).initOperands = s.initOperands) :
    execInit (s.withConfig w h lb pb ps) = mapNext (·.withConfig w h lb pb ps) (execInit s) := by
  unfold execInit
  rw [ho, State.initFlag_withConfig]
  cases s.initFlag
  · cases geometryOf s.initOperands <;> rfl
  · rfl

theorem execShutdown_withConfig :
    execShutdown (s.withConfig w h lb pb ps) = mapNext (·.withConfig w h lb pb ps) (execShutdown s) := by
  unfold execShutdown
  rw [State.initFlag_withConfig]
  cases s.initFlag <;> rfl

theorem execPresent_withConfig :
    execPresent (s.withConfig w h lb pb ps) = mapNext (·.withConfig w h lb pb ps) (execPresent s) := by
  unfold execPresent
  rw [State.initFlag_withConfig, State.presentPort_withConfig]
  cases s.initFlag
  · rfl
  · cases s.presentPort <;> rfl

theorem execSetGamma_withConfig (level : Byte) :
    execSetGamma level (s.withConfig w h lb pb ps) =
      mapNext (·.withConfig w h lb pb ps) (execSetGamma level s) := by
  unfold execSetGamma
  split <;> rfl

/-- The new tables depend on the configuration registers only through the palette address. -/
theorem State.stageTables_withConfig (hs : (s.withConfig w h lb pb ps).paletteSource = s.paletteSource) :
    (s.withConfig w h lb pb ps).stageTables = s.stageTables.withConfig w h lb pb ps := by
  have hraced : (s.withConfig w h lb pb ps).tripleRaced = s.tripleRaced := by
    funext i; unfold State.tripleRaced; rw [hs]; rfl
  have hchannel : (s.withConfig w h lb pb ps).channel = s.channel := by
    funext i c; unfold State.channel; rw [hs]; rfl
  have hcolor : (s.withConfig w h lb pb ps).stagedColor = s.stagedColor := by
    funext i; unfold State.stagedColor; rw [hraced, hchannel]; rfl
  have h565 : (s.withConfig w h lb pb ps).staged565 = s.staged565 := by
    funext i; unfold State.staged565; rw [hraced, hchannel]; rfl
  rw [State.stageTables, hcolor, h565]
  rfl

theorem execSetPalette_withConfig (hs : (s.withConfig w h lb pb ps).paletteSource = s.paletteSource) :
    execSetPalette (s.withConfig w h lb pb ps) = mapNext (·.withConfig w h lb pb ps) (execSetPalette s) := by
  have hport : (s.withConfig w h lb pb ps).palettePort = s.palettePort := by
    unfold State.palettePort State.paletteSpan; rw [hs]; rfl
  unfold execSetPalette
  rw [hs, hport, State.stageTables_withConfig w h lb pb ps hs]
  split
  · rfl
  · cases s.palettePort <;> rfl

/-- A completion does the same whatever the configuration registers hold (R32). -/
theorem completion_withConfig {p : Pending} (hp : s.pending = some p) :
    exec p.op.toInstr (s.withConfig w h lb pb ps) =
      mapNext (·.withConfig w h lb pb ps) (exec p.op.toInstr s) := by
  cases hop : p.op with
  | init w' h' lb' pb' =>
    exact execInit_withConfig w h lb pb ps (State.initOperands_withConfig w h lb pb ps hp (hop ▸ rfl))
  | shutdown => exact execShutdown_withConfig w h lb pb ps
  | present => exact execPresent_withConfig w h lb pb ps
  | setPalette ps' =>
    exact execSetPalette_withConfig w h lb pb ps (State.paletteSource_withConfig w h lb pb ps hp (hop ▸ rfl))
  | setGamma level => exact execSetGamma_withConfig w h lb pb ps level
  | nearest r g b => rfl

end

/-- Settles O53: a completion commutes with a change of the configuration registers. -/
theorem sampledOperandsAreKept : Obligations.SampledOperandsAreKept := by
  intro s t p w h lb pb ps hp hx
  refine (completion_withConfig w h lb pb ps hp).trans ?_
  rw [hx]
  rfl

end Sys2Proof.Machine

/-! ### Memory: a canonical memory is what it reads as (R60; log entry 1) -/

namespace Sys2Proof.Machine.Memory

theorem wf_tail {c : Host.Cell} {m : Memory} (h : Memory.wf (c :: m)) : Memory.wf m :=
  ⟨(List.pairwise_cons.1 h.1).2, fun d hd => h.2 d (List.mem_cons_of_mem _ hd)⟩

/-- The cells behind the first list no address up to that of the first. -/
theorem read_tail {c : Host.Cell} {m : Memory} (h : Memory.wf (c :: m)) {a : Nat} (ha : a ≤ c.1) :
    m.read a = unlisted :=
  read_below fun _ hd => Nat.lt_of_le_of_lt ha ((List.pairwise_cons.1 h.1).1 _ hd)

@[simp] theorem read_head (b : Nat) (v : Byte) (m : Memory) : Memory.read ((b, v) :: m) b = v := if_pos rfl

theorem read_of_lt_head {b : Nat} {v : Byte} {m : Memory} (h : Memory.wf ((b, v) :: m)) {a : Nat} (ha : a < b) :
    Memory.read ((b, v) :: m) a = unlisted := by
  rw [read_cons, if_neg (Nat.ne_of_lt ha)]
  exact read_tail h (Nat.le_of_lt ha)

/-- No listed cell of a canonical memory reads as unlisted. -/
theorem read_head_ne {b : Nat} {v : Byte} {m : Memory} (h : Memory.wf ((b, v) :: m)) :
    Memory.read ((b, v) :: m) b ≠ unlisted := by
  rw [read_head]
  exact (h.2 (b, v) List.mem_cons_self).2

/-- Of two canonical memories that read alike, neither begins above the other. -/
theorem head_le_of_read_eq {b b' : Nat} {v v' : Byte} {m m' : Memory} (h : Memory.wf ((b, v) :: m))
    (h' : Memory.wf ((b', v') :: m')) (hr : ∀ a, Memory.read ((b, v) :: m) a = Memory.read ((b', v') :: m') a) :
    b' ≤ b := by
  by_contra hlt
  exact read_head_ne h ((hr b).trans (read_of_lt_head h' (Nat.not_le.1 hlt)))

/-- Settles O57, by induction on both lists: the first cells agree in address and byte, and the rests read alike. -/
theorem canonicalMemoriesThatReadAlikeAreEqual : Obligations.CanonicalMemoriesThatReadAlikeAreEqual := by
  intro m
  induction m with
  | nil =>
    intro m' _ hm' hr
    cases m' with
    | nil => rfl
    | cons c' m' => exact absurd (hr c'.1).symm (read_head_ne hm')
  | cons c m ih =>
    intro m' hm hm' hr
    obtain ⟨b, v⟩ := c
    cases m' with
    | nil => exact absurd (hr b) (read_head_ne hm)
    | cons c' m' =>
      obtain ⟨b', v'⟩ := c'
      obtain rfl : b = b' :=
        Nat.le_antisymm (head_le_of_read_eq hm' hm fun a => (hr a).symm) (head_le_of_read_eq hm hm' hr)
      obtain rfl : v = v' := by simpa using hr b
      refine congrArg _ (ih m' (wf_tail hm) (wf_tail hm') fun a => ?_)
      by_cases ha : a = b
      · rw [read_tail hm ha.le, read_tail hm' ha.le]
      · simpa [read_cons, ha] using hr a

end Sys2Proof.Machine.Memory

/-! ### Bad accesses and other agents (R64, R76, R77) -/

namespace Sys2Proof.Machine

/-- Only a 32-bit access at an aligned offset is an operation (R64, R91). -/
theorem decode_badAccess {a : Access} (h : a.size ≠ .b4 ∨ a.offset.toNat % 4 ≠ 0) :
    ∃ e, decode (.access a) = .error e := by
  by_cases hs : a.size = .b4
  · have ha : isAligned a.offset = false := by simpa [isAligned, hs] using h
    exact ⟨.misaligned, by simp [decode, decodeAccess, hs, ha]⟩
  · exact ⟨.notWordAccess, by simp [decode, decodeAccess, hs]⟩

/-- Settles O11: the access decodes to no operation, so the port answers with a bus error and nothing else happens. -/
theorem badAccessGetsABusError : Obligations.BadAccessGetsABusError := by
  intro s a es hbox hbad
  obtain ⟨e, hd⟩ := decode_badAccess hbad
  rw [step_badAccess (nextEvent_cons hbox) hd, State.takeEvent_cons hbox]
  rfl

/-- A step on a waiting event is what that event does. -/
theorem step_cons {s : State} {e : Event} {es : List Event} (h : s.inbox = e :: es) :
    step s = runEvent e s.takeEvent := by
  rw [step_eq, nextEvent_cons h]

theorem State.agentReads_memory {s : State} {a : Nat}
    (h : s.presenting = false ∨ s.inactiveSpan.contains a = false) :
    s.agentReads a = s.respond (.memByte (s.mem.read a)) :=
  if_neg (by obtain h | h := h <;> simp [h])

theorem State.agentReads_free {s : State} {a : Nat} (hp : s.presenting = true)
    (hi : s.inactiveSpan.contains a = true) :
    s.agentReads a = (s.respond (.memByte (Config.freeByte s.fresh 0))).draw :=
  if_pos (Bool.and_eq_true_iff.2 ⟨hp, hi⟩)

/-- Settles O55: the write is one write of memory, noted against the pending command; the read has its two cases. -/
theorem otherAgentsReadAndWrite : Obligations.OtherAgentsReadAndWrite := by
  refine ⟨fun s es a v hm hbox => ?_, fun s es a hbox => ⟨fun h => ?_, fun hp hi => ?_⟩⟩
  · refine ⟨s.mem.write a.toNat v, (s.agentWrites a.toNat v).pending, ?_, fun b => ?_, fun p hp => ?_, fun hp => ?_⟩
    · rw [step_cons hbox, State.takeEvent_cons hbox]
      rfl
    · simp only [Memory.read_write hm, a.isLt, and_true]
    · simp [State.agentWrites, hp]
    · simp [State.agentWrites, hp]
  · rw [step_cons hbox, runEvent, State.agentReads_memory (s := s.takeEvent) h, State.takeEvent_cons hbox]
    rfl
  · rw [step_cons hbox, runEvent, State.agentReads_free (s := s.takeEvent) hp hi, State.takeEvent_cons hbox]
    rfl

end Sys2Proof.Machine

/-! ### Completions, by what the memory port answers (R67, R68, R82) -/

namespace Sys2Proof.Machine

section
variable {s : State}

theorem execPresent_ok (hi : s.initFlag = true) (hp : s.presentPort = .ok) :
    execPresent s = .next (s.flipTo s.presented) := by simp [execPresent, hi, hp]

theorem execPresent_error (hi : s.initFlag = true) (hp : s.presentPort = .error) :
    execPresent s = .next ((s.setMem s.spoiled).draw.raiseErr .ebus) := by simp [execPresent, hi, hp]

theorem execPresent_device (hi : s.initFlag = true) (hp : s.presentPort = .device) :
    execPresent s = .fault .deviceMemory := by simp [execPresent, hi, hp]

theorem execSetPalette_ok (hf : s.paletteSource + 768 ≤ 2 ^ 64) (hp : s.palettePort = .ok) :
    execSetPalette s = .next s.stageTables.commitTables.draw.complete := by
  rw [execSetPalette, if_neg (Nat.not_lt.2 hf), hp]

theorem execSetPalette_device (hf : s.paletteSource + 768 ≤ 2 ^ 64) (hp : s.palettePort = .device) :
    execSetPalette s = .fault .deviceMemory := by
  rw [execSetPalette, if_neg (Nat.not_lt.2 hf), hp]

/-- The accesses of PRESENT get data where no bus region touches the surface or the target. -/
theorem State.presentPort_clear (hs : s.Clear s.sourceSpan) (ht : s.Clear s.targetSpan) : s.presentPort = .ok :=
  State.portResult_clear (by simpa using ⟨hs, ht⟩)

theorem State.palettePort_clear (h : s.Clear s.paletteSpan) : s.palettePort = .ok :=
  State.portResult_clear (List.forall_mem_singleton.2 h)

theorem State.presentPort_device_iff :
    s.presentPort = .device ↔ s.Hits .device s.sourceSpan ∨ s.Hits .device s.targetSpan := by
  simp [State.presentPort, State.portResult_device_iff]

theorem State.palettePort_device_iff : s.palettePort = .device ↔ s.Hits .device s.paletteSpan := by
  simp [State.palettePort, State.portResult_device_iff]

/-- Where every access gets data, PRESENT completes a frame with the converted memory (R157, R158, R160, R161). -/
theorem execPresent_clear (hi : s.initFlag = true) (hs : s.Clear s.sourceSpan) (ht : s.Clear s.targetSpan) :
    execPresent s = .next (s.afterFrame s.presented) := execPresent_ok hi (State.presentPort_clear hs ht)

end

/-! ### The only stop (R68; log entry 11) -/

/-- The completion of any command answers a next state, but for a PRESENT with a geometry and a SET_PALETTE of a buffer
that fits, over device memory. -/
theorem completion_total (s : State) (p : Pending) :
    (∃ t, exec p.op.toInstr s = .next t) ∨
      (exec p.op.toInstr s = .fault .deviceMemory ∧
        ((p.op = .present ∧ s.initFlag = true ∧ s.presentPort = .device) ∨
          ∃ ps, p.op = .setPalette ps ∧ s.paletteSource + 768 ≤ 2 ^ 64 ∧ s.palettePort = .device)) := by
  cases p.op with
  | init w h lb pb => exact .inl (execInit_total s)
  | shutdown => exact .inl (execShutdown_total s)
  | present => exact (execPresent_total s).imp_right fun ⟨hi, hp, hx⟩ => ⟨hx, .inl ⟨rfl, hi, hp⟩⟩
  | setPalette ps =>
    exact (execSetPalette_total s).imp_right fun ⟨hf, hp, hx⟩ => ⟨hx, .inr ⟨ps, rfl, hf, hp⟩⟩
  | setGamma level => exact .inl (execSetGamma_total level s)
  | nearest r g b => exact .inl ⟨_, rfl⟩

/-- A step answers a next state, or it is a completion that stops. -/
theorem step_total (s : State) :
    (∃ t, step s = .next t) ∨
      ∃ p, s.nextEvent = .engine ∧ s.pending = some p ∧ step s = exec p.op.toInstr s.takeEvent := by
  cases he : s.nextEvent with
  | engine =>
    cases hp : s.pending with
    | none => exact .inl ⟨_, step_idle he hp⟩
    | some p => exact .inr ⟨p, rfl, rfl, step_engine he hp⟩
  | access a => rw [step_eq, he]; exact .inl (runAccess_total a _)
  | _ => rw [step_eq, he]; exact .inl ⟨_, rfl⟩

/-- Settles O40: the two commands stop over device memory; every other event and completion answers a next state. -/
theorem onlyDeviceMemoryStops : Obligations.OnlyDeviceMemoryStops := by
  refine ⟨fun s hi hd => execPresent_device hi (State.presentPort_device_iff.2 hd),
    fun s hf hd => execSetPalette_device hf (State.palettePort_device_iff.2 hd), fun s => ?_⟩
  obtain ht | ⟨p, he, hp, hstep⟩ := step_total s
  · exact .inl ht
  rw [hstep]
  obtain ht | ⟨hx, ⟨hop, hi, hport⟩ | ⟨ps, hop, hf, hport⟩⟩ := completion_total s.takeEvent p
  · exact .inl ht
  · exact .inr (.inl ⟨hx, State.completing_of_pending he hp hop, hi, State.presentPort_device_iff.1 hport⟩)
  · have hc : s.Completing (.setPalette ps) := State.completing_of_pending he hp hop
    obtain ⟨-, raced, hpend⟩ := id hc
    obtain ⟨hsrc, -, hspan⟩ := State.palette_of_pending hpend
    exact .inr (.inr ⟨hx, ps, hc, hsrc ▸ hf, hspan ▸ State.palettePort_device_iff.1 hport⟩)

/-! ### Runs without device memory (R68) -/

theorem issue_inbox_bus {w : Word} {s t : State} (h : issue w s = .next t) : t.inbox = s.inbox ∧ t.bus = s.bus := by
  obtain ⟨_, rfl⟩ | rfl | ⟨_, _, -, rfl⟩ | ⟨-, _, rfl⟩ := issue_cases h <;> exact ⟨rfl, rfl⟩

theorem runAccess_inbox_bus {a : Access} {s t : State} (h : runAccess a s = .next t) :
    t.inbox = s.inbox ∧ t.bus = s.bus := by
  obtain ⟨_, rfl⟩ | ⟨_, _, -, ⟨-, hi⟩ | ⟨-, rfl⟩ | ⟨-, rfl⟩ | ⟨-, _, rfl⟩ | ⟨-, _, rfl⟩ | ⟨-, _, rfl⟩⟩ := runAccess_cases h
  case inr.inl => exact issue_inbox_bus (s := s.respond .written) hi
  all_goals exact ⟨rfl, rfl⟩

theorem completion_inbox_bus {p : Pending} {s t : State} (h : exec p.op.toInstr s = .next t) :
    t.inbox = s.inbox ∧ t.bus = s.bus := by
  obtain rfl | ⟨_, -, rfl⟩ | ⟨-, -, _, -, rfl⟩ | ⟨-, -, rfl⟩ | ⟨-, -, -, rfl⟩ | ⟨-, -, -, rfl⟩ | ⟨_, -, rfl⟩ |
    ⟨_, -, rfl⟩ | ⟨_, -, -, rfl⟩ | ⟨_, _, _, -, rfl⟩ := completion_cases h <;> exact ⟨rfl, rfl⟩

/-- An event adds nothing to the inbox, and only the platform changes the bus map (log entries 2 and 9). -/
theorem runEvent_inbox_bus {e : Event} {s t : State} (h : runEvent e s = .next t) :
    t.inbox = s.inbox ∧ (t.bus = s.bus ∨ e = .bus t.bus) := by
  cases e with
  | access a =>
    obtain ⟨hbox, hbus⟩ := runAccess_inbox_bus h
    exact ⟨hbox, .inl hbus⟩
  | engine =>
    cases hp : s.pending with
    | none => simp only [runEvent, runEngine, hp] at h; cases h; exact ⟨rfl, .inl rfl⟩
    | some p =>
      simp only [runEvent, runEngine, hp] at h
      obtain ⟨hbox, hbus⟩ := completion_inbox_bus h
      exact ⟨hbox, .inl hbus⟩
  | reset => cases h; exact ⟨rfl, .inl rfl⟩
  | agentWrite a v => cases h; exact ⟨rfl, .inl rfl⟩
  | agentRead a =>
    cases h
    unfold State.agentReads
    split <;> exact ⟨rfl, .inl rfl⟩
  | lateWrite a =>
    cases h
    unfold State.lateWrites
    split <;> exact ⟨rfl, .inl rfl⟩
  | bus regions => cases h; exact ⟨rfl, .inr rfl⟩

theorem mem_inbox_of_nextEvent_bus {s : State} {rs : List BusRegion} (h : s.nextEvent = .bus rs) :
    .bus rs ∈ s.inbox := by
  cases hbox : s.inbox with
  | nil => cases (nextEvent_nil hbox).symm.trans h
  | cons e es => exact ((nextEvent_cons hbox).symm.trans h) ▸ List.mem_cons_self

/-- A step keeps device memory off the bus map, now and later. -/
theorem State.NoDevice.step {s t : State} (h : s.NoDevice) (hstep : Machine.step s = .next t) : t.NoDevice := by
  obtain ⟨hnow, hlater⟩ := h
  obtain ⟨hbox, hbus⟩ := runEvent_inbox_bus ((step_eq s).symm.trans hstep)
  refine ⟨?_, fun rs hrs => hlater rs ?_⟩
  · obtain hbus | hbus := hbus
    · exact hbus ▸ hnow
    · exact hlater _ (mem_inbox_of_nextEvent_bus hbus)
  · rw [hbox] at hrs
    exact List.mem_of_mem_tail hrs

theorem State.not_hits_device {s : State} (h : ∀ r ∈ s.bus, r.kind ≠ .device) (q : Span) : ¬ s.Hits .device q :=
  fun ⟨r, hr, hk, _⟩ => h r hr hk

/-- With no device memory on the bus map a step answers a next state. -/
theorem State.NoDevice.step_next {s : State} (h : s.NoDevice) : ∃ t, Machine.step s = .next t := by
  have hn := State.not_hits_device h.1
  obtain ht | ⟨-, -, -, hd⟩ | ⟨-, _, -, -, hd⟩ := onlyDeviceMemoryStops.2.2 s
  · exact ht
  · exact (hd.elim (hn _) (hn _)).elim
  · exact (hn _ hd).elim

/-- A run of one step more takes its first step, on any machine. -/
theorem run_succ {M : Host.Core} {s t : M.State} (h : M.step s = .next t) (k : Nat) : M.run (k + 1) s = M.run k t := by
  rw [Host.Core.run, h]

/-- Settles O41, by induction on the number of steps: no step stops, and device memory stays off the bus map. -/
theorem runsWithoutDeviceMemoryNeverStop : Obligations.RunsWithoutDeviceMemoryNeverStop := by
  intro k
  induction k with
  | zero => exact fun s _ => ⟨s, rfl⟩
  | succ k ih =>
    intro s h
    obtain ⟨t, ht⟩ := h.step_next
    obtain ⟨u, hu⟩ := ih t (h.step ht)
    exact ⟨u, (run_succ (M := core) ht k).trans hu⟩

/-! ### PRESENT: races, and what it reads (R67, R76, R77) -/

theorem State.pairRaced_iff (s : State) (k : Nat) :
    s.pairRaced k = true ↔ s.geom.log.toNat + 2 * k ∈ s.raced ∨ s.geom.log.toNat + 2 * k + 1 ∈ s.raced := by
  simp [State.pairRaced]

/-- Both texels of a raced pair are free (R76). -/
theorem State.texel_raced {s : State} {j : Nat} (h : s.pairRaced (j / 2) = true) :
    s.texel j = Config.freeTexel s.fresh j := if_pos h

/-- Both texels of any other pair are the colors of their pixels (R153). -/
theorem State.texel_of_not_raced {s : State} {j : Nat} (h : ¬ s.pairRaced (j / 2) = true) :
    s.texel j = s.ct.get (s.mem.read (s.geom.log.toNat + j)) := if_neg h

/-- An unraced byte of pair k after a PRESENT is of its texel (R153, R154). -/
theorem State.read_presented_pair {s : State} (hg : s.geom.Legal) (hm : s.mem.wf) {k c : Nat} (hk : 2 * k < s.geom.n)
    (hc : c < 8) (hr : s.inactiveBase + 8 * k + c ∉ s.raced) :
    s.presented.read (s.inactiveBase + 8 * k + c) = (s.texel (2 * k + c / 4)).extractLsb' (8 * (c % 4)) 8 := by
  have hn := hg.blocks
  have ht : s.targetSpan.contains (s.inactiveBase + 8 * k + c) = true := by
    rw [State.targetSpan_contains]; omega
  have hq : (s.inactiveBase + 8 * k + c - s.inactiveBase) / 4 = 2 * k + c / 4 := by omega
  have hl : (s.inactiveBase + 8 * k + c - s.inactiveBase) % 4 = c % 4 := by omega
  rw [State.read_presented hg hm, if_neg fun h => hr h.1, if_pos ht, hq, hl]

/-- Settles O36: PRESENT completes with the converted memory, whose bytes are read off clause by clause. -/
theorem presentUnderRaces : Obligations.PresentUnderRaces := by
  intro s hi hg hm hs ht
  refine ⟨s.presented, execPresent_clear hi hs ht, fun k c hk hc hr => ?_,
    fun a ha hhalf => ?_, fun a htarget hrest => ?_⟩
  · have hpair : (2 * k + c / 4) / 2 = k := by omega
    rw [State.read_presented_pair hg hm hk hc hr]
    refine ⟨fun hraced => ?_, fun h0 h1 => ?_⟩
    · rw [State.texel_raced (hpair.symm ▸ (s.pairRaced_iff k).2 hraced)]
    · rw [State.texel_of_not_raced (hpair.symm ▸ fun h => ((s.pairRaced_iff k).1 h).elim h0 h1), Nat.add_assoc]
  · rw [State.read_presented hg hm, if_pos ⟨ha, hhalf⟩]
  · have hfree : ¬ (a ∈ s.raced ∧ s.inactiveSpan.contains a = true) := by
      rintro ⟨ha, hhalf⟩
      exact hrest.elim (· ha) fun h => Bool.noConfusion (hhalf.symm.trans h)
    rw [State.read_presented hg hm, if_neg hfree, if_neg (by simp [htarget])]

section
variable {s : State} {m : Memory}

@[simp] theorem State.presentPort_setMem : (s.setMem m).presentPort = s.presentPort := rfl
@[simp] theorem State.targetSpan_setMem : (s.setMem m).targetSpan = s.targetSpan := rfl
@[simp] theorem State.inactiveSpan_setMem : (s.setMem m).inactiveSpan = s.inactiveSpan := rfl
@[simp] theorem State.inactiveBase_setMem : (s.setMem m).inactiveBase = s.inactiveBase := rfl
@[simp] theorem State.raced_setMem : (s.setMem m).raced = s.raced := rfl
@[simp] theorem State.pairRaced_setMem (k : Nat) : (s.setMem m).pairRaced k = s.pairRaced k := rfl

/-- A texel of the surface depends on memory only through its pixel (R67). -/
theorem State.texel_setMem (hread : ∀ a, s.sourceSpan.contains a = true → m.read a = s.mem.read a) {j : Nat}
    (hj : j < s.geom.n) : (s.setMem m).texel j = s.texel j := by
  have hpixel : m.read (s.geom.log.toNat + j) = s.mem.read (s.geom.log.toNat + j) :=
    hread _ ((s.sourceSpan_contains _).2 (by omega))
  simp [State.texel, State.pixel, hpixel]

/-- The target after a PRESENT depends on memory only through the surface (R67). -/
theorem State.read_presented_setMem (hg : s.geom.Legal) (hs : s.mem.wf) (hm : m.wf)
    (hread : ∀ a, s.sourceSpan.contains a = true → m.read a = s.mem.read a) {a : Nat}
    (ha : s.targetSpan.contains a = true) : (s.setMem m).presented.read a = s.presented.read a := by
  have hj : (a - s.inactiveBase) / 4 < s.geom.n := by rw [State.targetSpan_contains] at ha; omega
  rw [State.read_presented (s := s.setMem m) hg hm, State.read_presented hg hs]
  simp [ha, State.texel_setMem hread hj]

/-- The target after a bus error depends on no memory at all (R162). -/
theorem State.read_spoiled_setMem (hg : s.geom.Legal) (hs : s.mem.wf) (hm : m.wf) {a : Nat}
    (ha : s.targetSpan.contains a = true) : (s.setMem m).spoiled.read a = s.spoiled.read a := by
  rw [State.read_spoiled (s := s.setMem m) hg hm, State.read_spoiled hg hs]
  simp [ha]

end

/-- Settles O43: with the same port the other memory takes the same branch, and its target bytes are the same. -/
theorem presentReadsOnlyTheSurface : Obligations.PresentReadsOnlyTheSurface := by
  intro s t p m hi hg hs hm hread hp hx ht
  obtain ⟨hi', -⟩ | ⟨-, -, rfl⟩ | ⟨-, hport, rfl⟩ | ⟨-, hport, rfl⟩ := execPresent_cases hx
  · cases hi.symm.trans hi'
  · cases hp.symm.trans ht
  · exact ⟨(s.setMem m).spoiled, execPresent_error (s := s.setMem m) hi (State.presentPort_setMem.trans hport),
      fun a ha => State.read_spoiled_setMem hg hs hm ha⟩
  · exact ⟨(s.setMem m).presented, execPresent_ok (s := s.setMem m) hi (State.presentPort_setMem.trans hport),
      fun a ha => State.read_presented_setMem hg hs hm hread ha⟩

/-! ### SET_PALETTE: races (R76) -/

theorem freeColor_bits (c : BitVec 24) : (0#8 ++ c : Word).extractLsb' 0 24 = c := by
  apply BitVec.eq_of_getLsbD_eq
  intro i hi
  simp only [BitVec.getLsbD_extractLsb', BitVec.getLsbD_append, Nat.zero_add, hi, if_true,
    decide_true, Bool.true_and]

/-- Both new entries of a raced triple are free, but for the alpha of the color (R76). -/
theorem State.staged_raced {s : State} {i : Byte} (h : s.tripleRaced i = true) :
    (s.stagedColor i).extractLsb' 0 24 = Config.freeColor s.fresh i.toNat ∧
      s.staged565 i = Config.freeEntry565 s.fresh i.toNat := by
  rw [State.stagedColor, State.staged565, if_pos h, if_pos h]
  exact ⟨freeColor_bits _, rfl⟩

/-- Both new entries of any other triple are made of its gamma-corrected channels (R183, R184). -/
theorem State.staged_of_not_raced {s : State} {i : Byte} (h : ¬ s.tripleRaced i = true) :
    s.stagedColor i = shiftedColor (s.channel i 0) (s.channel i 1) (s.channel i 2) ∧
      s.staged565 i = shifted565 (s.channel i 0) (s.channel i 1) (s.channel i 2) := by
  rw [State.stagedColor, State.staged565, if_neg h, if_neg h, packColor_eq, pack565_eq]
  exact ⟨rfl, rfl⟩

/-- Settles O47: both tables take the staged entries, of which each is raced or made of its triple. -/
theorem setPaletteUnderRaces : Obligations.SetPaletteUnderRaces := by
  intro s ps raced hp hf hclear
  obtain ⟨hsrc, hraced, hspan⟩ := State.palette_of_pending hp
  refine ⟨Table.of s.stagedColor, Table.of s.staged565,
    execSetPalette_ok (hsrc ▸ hf) (State.palettePort_clear (hspan ▸ hclear)), fun i => ?_⟩
  have hiff := s.tripleRaced_iff i
  rw [hsrc, hraced] at hiff
  rw [Table.get_of, Table.get_of]
  refine ⟨s.stagedColor_alpha i, fun h => State.staged_raced (hiff.2 h), fun h => ?_⟩
  have hnot : ¬ s.tripleRaced i = true := fun ht =>
    let ⟨c, hc, hmem⟩ := hiff.1 ht
    h c hc hmem
  rw [← hsrc]
  exact State.staged_of_not_raced hnot

end Sys2Proof.Machine

/-! ### Decoding and encoding (R91 to R102) -/

namespace Sys2Proof

/-- The OP of a word is its value modulo 16 (R92). -/
theorem op_eq_mod (w : Word) : (w.extractLsb' 0 4).toNat = w.toNat % 16 := by simp

/-- The reserved opcodes are those with bit 3 set (R95). -/
theorem eight_le_op_iff (w : Word) : 8 ≤ (w.extractLsb' 0 4).toNat ↔ w.getLsbD 3 = true := by
  rw [op_eq_mod, BitVec.getLsbD, Nat.testBit_eq_decide_div_mod_eq, decide_eq_true_iff]
  omega

/-- ACK with any operands decodes to it (R93, R94). -/
theorem decodeCommand_ack :
    ∀ clrStat clrErr, decodeCommand (encodeCommand (.ack clrStat clrErr)) = .ok (.ack clrStat clrErr) := by
  decide

/-- A command word decodes to the command it encodes (R101). -/
theorem decodeCommand_encodeCommand {c : Command} (h : c.toInstr.wellFormed = true) :
    decodeCommand (encodeCommand c) = .ok c := by
  cases c with
  | nop => exact decodeCommand_nop
  | init => exact decodeCommand_init
  | shutdown => exact decodeCommand_shutdown
  | present => exact decodeCommand_present
  | setPalette => exact decodeCommand_setPalette
  | setGamma level => exact decodeCommand_setGamma level
  | nearest r g b => exact decodeCommand_nearest r g b
  | ack clrStat clrErr => exact decodeCommand_ack clrStat clrErr
  | reservedOpcode w => exact decodeCommand_reservedOpcode ((eight_le_op_iff w).2 h)

theorem decode_encodeCommand (c : Command) (h : c.toInstr.wellFormed = true) :
    decode (.command (encodeCommand c)) = .ok c.toInstr := by
  rw [decode, decodeCommand_encodeCommand h, Except.map]

theorem decode_readAccess_ct (i : Byte) : decode (readAccess (windowOffset 0x400#12 i)) = .ok (.rdCt i) := by
  rw [decode_read (Laws.EncodeShape.ctOffset_aligned i), decodeRead, slotOf_ctWindow]

theorem decode_readAccess_p565 (i : Byte) : decode (readAccess (windowOffset 0x800#12 i)) = .ok (.rdP565 i) := by
  rw [decode_read (Laws.EncodeShape.p565Offset_aligned i), decodeRead, slotOf_p565Window]

theorem decode_writeAccess_ct (i : Byte) (v : Word) :
    decode (writeAccess (windowOffset 0x400#12 i) v) = .ok (.wrCtWindow i v) := by
  rw [decode_write (Laws.EncodeShape.ctOffset_aligned i), decodeWrite, slotOf_ctWindow]

theorem decode_writeAccess_p565 (i : Byte) (v : Word) :
    decode (writeAccess (windowOffset 0x800#12 i) v) = .ok (.wrP565Window i v) := by
  rw [decode_write (Laws.EncodeShape.p565Offset_aligned i), decodeWrite, slotOf_p565Window]

/-- An access at an aligned reserved offset decodes to the operation that keeps its offset and direction (R219). -/
theorem decode_reservedOffset {o : BitVec 12} (ha : isAligned o = true) (hr : isReservedOffset o = true)
    (dir : Direction) : decode (.access { offset := o, size := .b4, dir := dir }) = .ok (.reservedOffset o dir) := by
  cases dir with
  | read => exact (decode_read ha).trans (by rw [decodeRead, slotOf_reserved o hr])
  | write v => exact (decode_write ha v).trans (by rw [decodeWrite, slotOf_reserved o hr])

/-- Settles O3: commands by their words, windows and reserved offsets by the register map; every other register has one
fixed aligned offset, whose slot is a `slotOf_at_` lemma. -/
theorem decodeOfEncodeIsTheOperation : Obligations.DecodeOfEncodeIsTheOperation := by
  intro i h
  cases i with
  | nop => exact decode_encodeCommand .nop h
  | init => exact decode_encodeCommand .init h
  | shutdown => exact decode_encodeCommand .shutdown h
  | present => exact decode_encodeCommand .present h
  | setPalette => exact decode_encodeCommand .setPalette h
  | setGamma level => exact decode_encodeCommand (.setGamma level) h
  | nearest r g b => exact decode_encodeCommand (.nearest r g b) h
  | ack clrStat clrErr => exact decode_encodeCommand (.ack clrStat clrErr) h
  | reservedOpcode w => exact decode_encodeCommand (.reservedOpcode w) h
  | rdCt i => exact decode_readAccess_ct i
  | rdP565 i => exact decode_readAccess_p565 i
  | wrCtWindow i v => exact decode_writeAccess_ct i v
  | wrP565Window i v => exact decode_writeAccess_p565 i v
  | reservedOffset o dir =>
    obtain ⟨ha, hr⟩ := (Bool.and_eq_true_iff.1 h : isAligned o = true ∧ isReservedOffset o = true)
    exact decode_reservedOffset ha hr dir
  | _ => simp [encode, decode_read, decode_write, isAligned, decodeRead, decodeWrite]

/-- Only a reserved opcode can be a command that is no operation of the table (R95). -/
theorem wellFormed_of_ne_reservedOpcode {c : Command} (h : ∀ w, c ≠ .reservedOpcode w) :
    c.toInstr.wellFormed = true := by
  cases c with
  | reservedOpcode w => exact absurd rfl (h w)
  | _ => rfl

/-- Settles O4: the three outcomes of the decoder, of which the first two are commands. -/
theorem everyCommandWordHasOneMeaning : Obligations.EveryCommandWordHasOneMeaning := by
  intro w
  obtain ⟨hop, hd⟩ | ⟨c, hd, he, hc⟩ | hd := decodeCommand_cases w
  · exact .inl ⟨_, hd, rfl, (eight_le_op_iff w).1 hop⟩
  · exact .inl ⟨c, hd, he, wellFormed_of_ne_reservedOpcode hc⟩
  · exact .inr hd

/-- Settles O5: the decoder evaluated on the nine encodings. -/
theorem handWrittenEncodingsDecode : Obligations.HandWrittenEncodingsDecode := by
  unfold Obligations.HandWrittenEncodingsDecode
  decide

end Sys2Proof

/-! ### Commands that never become pending (R95 to R97, R210, R211) -/

namespace Sys2Proof.Machine

/-- The mask of a defined OP compares every reserved bit, with 0 (R94, R96). -/
theorem compared_of_reservedBit : ∀ (op : Fin 8) (bit : Fin 32), reservedBit op bit = true →
    (opMask op).getLsbD bit = true ∧ (opMatch op).getLsbD bit = false := by
  decide

/-- A defined OP with a 1 in a reserved bit fails the mask check (R96). -/
theorem decodeCommand_of_reservedBit {w : Word} {bit : Nat} (hop : w.toNat % 16 < 8)
    (hr : reservedBit (w.toNat % 16) bit = true) (hw : w.getLsbD bit = true) :
    decodeCommand w = .error .reservedBits := by
  have hbit : bit < 32 := BitVec.lt_of_getLsbD hw
  obtain ⟨hmask, hmatch⟩ := compared_of_reservedBit ⟨_, hop⟩ ⟨bit, hbit⟩ hr
  have hne : w &&& opMask (w.toNat % 16) ≠ opMatch (w.toNat % 16) := fun heq => by
    have hb : (w &&& opMask (w.toNat % 16)).getLsbD bit = true := by
      rw [BitVec.getLsbD_and, hw, hmask, Bool.and_self]
    rw [heq, hmatch] at hb
    cases hb
  simp only [decodeCommand, op_eq_mod]
  rw [if_neg (Nat.not_le.2 hop), if_pos hne]

/-- An illegal word is a reserved opcode or is rejected for a reserved bit (R95, R96). -/
theorem decodeCommand_of_illegalWord {w : Word} (h : IllegalWord w) :
    decodeCommand w = .ok (.reservedOpcode w) ∨ decodeCommand w = .error .reservedBits := by
  rcases le_or_gt 8 (w.toNat % 16) with hop | hop
  · exact .inl (decodeCommand_reservedOpcode ((op_eq_mod w).symm ▸ hop))
  · obtain hop' | ⟨bit, hr, hw⟩ := h
    · exact absurd hop' (Nat.not_le.2 hop)
    · exact .inr (decodeCommand_of_reservedBit hop hr hw)

/-- A word that is no command records EOPCODE at issue (R96). -/
theorem issue_of_decode_error {w : Word} {e : DecodeError} (hd : decodeCommand w = .error e) (s : State) :
    issue w s = .next (s.recordErr .eopcode) := by
  rw [issue, hd, rejectWord]

/-- Settles O18: both kinds of illegal word record EOPCODE at issue, after the port has answered the write. -/
theorem illegalWordRecordsEopcode : Obligations.IllegalWordRecordsEopcode := by
  refine ⟨fun s w hw => ?_, fun _ _ => rfl⟩
  obtain hd | hd := decodeCommand_of_illegalWord hw
  · exact issue_of_sample_none (s := s.respond .written) hd rfl
  · exact issue_of_decode_error hd (s.respond .written)

/-- Settles O21: NOP and ACK are never pending, so their CMD writes act as they do, after the port has answered. -/
theorem nopAndAckActAtIssue : Obligations.NopAndAckActAtIssue := by
  intro s clrStat clrErr
  refine ⟨rfl, issue_of_sample_none (s := s.respond .written) decodeCommand_nop rfl, rfl, ?_⟩
  rw [ackWord_eq]
  exact issue_of_sample_none (s := s.respond .written) (decodeCommand_ack clrStat clrErr) rfl

end Sys2Proof.Machine

/-! ### Frame buffer manager: INIT and SHUTDOWN (R120 to R131, R235) -/

namespace Sys2Proof.Machine

/-- Settles O17: each write is one update of the field its register is, or of one half of it (R120 to R123, R180). -/
theorem configurationWrites : Obligations.ConfigurationWrites := fun _ _ =>
  ⟨rfl, rfl, rfl, rfl, rfl, rfl, rfl, rfl⟩

/-! #### The checks of INIT on its operands, in the order of R235 -/

/-- The sizes INIT can latch (R127). -/
structure InitOperands.LegalSize (o : InitOperands) : Prop where
  width : o.w ≠ 0
  height : o.h ≠ 0
  blocks : (o.w.toNat * o.h.toNat) % 16 = 0
  bounded : 4 * (o.w.toNat * o.h.toNat) ≤ 2 ^ 31

/-- The geometry INIT latches where no check fails (R37, R125); `LegalSize.geometryOf_ok` ties it to the model. -/
def InitOperands.geometry (o : InitOperands) : Geometry :=
  { w := o.w, h := o.h, n := o.w.toNat * o.h.toNat, log := o.lb, phys := o.pb
    s := nextPow2 (4 * (o.w.toNat * o.h.toNat)) }

section
variable {o : InitOperands}

/-- A positive multiple of 16 is at least 16 (R127). -/
theorem InitOperands.LegalSize.le_pixels (hs : o.LegalSize) : 16 ≤ o.geometry.n := by
  have hw : o.w.toNat ≠ 0 := BitVec.toNat_ne.1 hs.width
  have hh : o.h.toNat ≠ 0 := BitVec.toNat_ne.1 hs.height
  exact Nat.le_of_dvd (Nat.mul_pos (Nat.pos_of_ne_zero hw) (Nat.pos_of_ne_zero hh)) (Nat.dvd_of_mod_eq_zero hs.blocks)

theorem InitOperands.LegalSize.le_half (hs : o.LegalSize) : 64 ≤ o.geometry.s :=
  (Nat.mul_le_mul_left 4 hs.le_pixels).trans (le_nextPow2 _)

theorem InitOperands.LegalSize.half_le (hs : o.LegalSize) : o.geometry.s ≤ 2 ^ 31 :=
  nextPow2_le_two_pow hs.bounded

/-- A power of two from 64 up is a multiple of 8 (R127). -/
theorem InitOperands.LegalSize.half_mod_eight (hs : o.LegalSize) : o.geometry.s % 8 = 0 := by
  obtain ⟨k, hk⟩ : ∃ k, o.geometry.s = 2 ^ k := exists_nextPow2_eq_two_pow _
  have h6 : 6 ≤ k := (Nat.pow_le_pow_iff_right (by decide)).1 (hk ▸ hs.le_half : 2 ^ 6 ≤ 2 ^ k)
  rw [hk]
  exact Nat.mod_eq_zero_of_dvd (pow_dvd_pow 2 (show 3 ≤ k by omega))

/-- The two surfaces, neither of them empty, share an address exactly when each starts below the end of the other
(R129). -/
theorem InitOperands.LegalSize.exists_shared_iff (hs : o.LegalSize) :
    (∃ a, (o.lb.toNat ≤ a ∧ a < o.lb.toNat + o.geometry.n) ∧
      (o.pb.toNat ≤ a ∧ a < o.pb.toNat + 2 * o.geometry.s)) ↔
      o.lb.toNat < o.pb.toNat + 2 * o.geometry.s ∧ o.pb.toNat < o.lb.toNat + o.geometry.n := by
  have hn := hs.le_pixels
  have hlen := hs.le_half
  constructor
  · rintro ⟨a, hlog, hphys⟩
    omega
  · rintro ⟨hlog, hphys⟩
    exact ⟨max o.lb.toNat o.pb.toNat, by omega⟩

/-- The size checks come first and all answer EDIM (R127). -/
theorem geometryOf_edim (h : o.w = 0 ∨ o.h = 0 ∨ (o.w.toNat * o.h.toNat) % 16 ≠ 0 ∨
    2 ^ 31 < 4 * (o.w.toNat * o.h.toNat)) : geometryOf o = .error .edim := by
  simp only [geometryOf]
  rw [← ite_or, ← ite_or, if_pos (by simpa only [or_assoc] using h)]

/-- With a legal size the alignment and then the ranges decide (R128, R129). -/
theorem InitOperands.LegalSize.geometryOf_eq (hs : o.LegalSize) :
    geometryOf o =
      if o.pb.toNat % 8 ≠ 0 then .error .ealign
      else if 2 ^ 64 < o.lb.toNat + o.geometry.n ∨ 2 ^ 64 < o.pb.toNat + 2 * o.geometry.s then .error .erange
      else if o.lb.toNat < o.pb.toNat + 2 * o.geometry.s ∧ o.pb.toNat < o.lb.toNat + o.geometry.n then .error .erange
      else .ok o.geometry := by
  simp only [geometryOf]
  rw [if_neg (not_or.2 ⟨hs.width, hs.height⟩), if_neg (not_not.2 hs.blocks), if_neg (Nat.not_lt.2 hs.bounded)]
  rfl

theorem InitOperands.LegalSize.geometryOf_ealign (hs : o.LegalSize) (ha : o.pb.toNat % 8 ≠ 0) :
    geometryOf o = .error .ealign := by
  rw [hs.geometryOf_eq, if_pos ha]

theorem InitOperands.LegalSize.geometryOf_erange (hs : o.LegalSize) (ha : o.pb.toNat % 8 = 0)
    (h : 2 ^ 64 < o.lb.toNat + o.geometry.n ∨ 2 ^ 64 < o.pb.toNat + 2 * o.geometry.s ∨
      ∃ a, (o.lb.toNat ≤ a ∧ a < o.lb.toNat + o.geometry.n) ∧
        (o.pb.toNat ≤ a ∧ a < o.pb.toNat + 2 * o.geometry.s)) : geometryOf o = .error .erange := by
  rw [hs.exists_shared_iff, ← or_assoc] at h
  rw [hs.geometryOf_eq, if_neg (not_not.2 ha), ← ite_or, if_pos h]

theorem InitOperands.LegalSize.geometryOf_ok (hs : o.LegalSize) (ha : o.pb.toNat % 8 = 0)
    (hlog : o.lb.toNat + o.geometry.n ≤ 2 ^ 64) (hphys : o.pb.toNat + 2 * o.geometry.s ≤ 2 ^ 64)
    (hd : ∀ a, ¬ ((o.lb.toNat ≤ a ∧ a < o.lb.toNat + o.geometry.n) ∧
      (o.pb.toNat ≤ a ∧ a < o.pb.toNat + 2 * o.geometry.s))) : geometryOf o = .ok o.geometry := by
  have hshared := hs.exists_shared_iff.not.1 (not_exists.2 hd)
  rw [hs.geometryOf_eq, if_neg (not_not.2 ha), if_neg (not_or.2 ⟨Nat.not_lt.2 hlog, Nat.not_lt.2 hphys⟩),
    if_neg hshared]

end

/-! #### The completion steps -/

section
variable {s : State} {w h : Half} {lb pb : DWord} {raced : List Nat}

/-- A pending INIT works on what it sampled (R32). -/
theorem State.initOperands_of_pending (hp : s.pending = some { op := .init w h lb pb, raced := raced }) :
    s.initOperands = { w := w, h := h, lb := lb, pb := pb } := by
  simp only [State.initOperands, hp]

theorem execInit_latched (hi : s.initFlag = true) : execInit s = .next (s.raiseErr .estate) := if_pos hi

theorem execInit_error {code : ErrCode} (hp : s.pending = some { op := .init w h lb pb, raced := raced })
    (hi : s.initFlag = false) (hg : geometryOf { w := w, h := h, lb := lb, pb := pb } = .error code) :
    execInit s = .next (s.raiseErr code) := by
  simp [execInit, hi, State.initOperands_of_pending hp, hg]

theorem execInit_ok {g : Geometry} (hp : s.pending = some { op := .init w h lb pb, raced := raced })
    (hi : s.initFlag = false) (hg : geometryOf { w := w, h := h, lb := lb, pb := pb } = .ok g) :
    execInit s = .next (s.latch g) := by
  simp [execInit, hi, State.initOperands_of_pending hp, hg]

theorem execShutdown_latched (hi : s.initFlag = true) :
    execShutdown s = .next { s with initFlag := false }.complete := if_pos hi

theorem execShutdown_estate (hi : s.initFlag = false) : execShutdown s = .next (s.raiseErr .estate) := by
  simp [execShutdown, hi]

/-- Half 0 is the active one after INIT, and it starts at the physical base (R35, R130). -/
theorem State.outActiveBase_latch (s : State) (g : Geometry) : (s.latch g).outActiveBase = g.phys := by
  simp [State.latch, State.outActiveBase, State.activeBase, Geometry.halfBase]

theorem State.toNat_outHalfSize_latch (s : State) {g : Geometry} (hg : g.s < 2 ^ 32) :
    (s.latch g).outHalfSize.toNat = g.s :=
  (BitVec.toNat_ofNat _ _).trans (Nat.mod_eq_of_lt hg)

end

/-- Settles O29: the check of the flag comes before the operands are looked at. -/
theorem initWhileLatchedIsEstate : Obligations.InitWhileLatchedIsEstate := fun _ _ _ _ _ _ _ hi =>
  execInit_latched hi

/-- Settles O30: a failed size check decides before the addresses are looked at; a legal N is a positive multiple of
16, and S is the least power of two from 4N up. -/
theorem initSizeConstraint : Obligations.InitSizeConstraint := by
  refine ⟨fun s w h lb pb raced hp hi hsize => execInit_error hp hi (geometryOf_edim hsize), ?_⟩
  intro w h hw hh hn hb
  have hs : InitOperands.LegalSize ⟨w, h, 0, 0⟩ := ⟨hw, hh, hn, hb⟩
  exact ⟨hs.le_pixels, Nat.mul_le_mul_left 4 hs.le_pixels, hs.le_half, hs.half_le, exists_nextPow2_eq_two_pow _,
    hs.half_mod_eight⟩

/-- Settles O31: with a legal size the alignment check decides. -/
theorem initAlignmentConstraint : Obligations.InitAlignmentConstraint := by
  intro s w h lb pb raced hp hi hw hh hn hb ha
  have hs : InitOperands.LegalSize ⟨w, h, lb, pb⟩ := ⟨hw, hh, hn, hb⟩
  exact execInit_error hp hi (hs.geometryOf_ealign ha)

/-- Settles O32: with a legal size and alignment the range checks decide. -/
theorem initRangeConstraint : Obligations.InitRangeConstraint := by
  intro s w h lb pb raced hp hi hw hh hn hb ha hrange
  have hs : InitOperands.LegalSize ⟨w, h, lb, pb⟩ := ⟨hw, hh, hn, hb⟩
  exact execInit_error hp hi (hs.geometryOf_erange ha hrange)

/-- Settles O28: every check passes, and S fits the 32 bits of HALF_SIZE as it is at most 2^31. -/
theorem initLatchesTheGeometry : Obligations.InitLatchesTheGeometry := by
  intro s w h lb pb raced hp hi hw hh hn hb ha hlog hphys hd
  have hs : InitOperands.LegalSize ⟨w, h, lb, pb⟩ := ⟨hw, hh, hn, hb⟩
  exact ⟨_, execInit_ok hp hi (hs.geometryOf_ok ha hlog hphys hd), rfl, rfl, rfl, State.outActiveBase_latch s _,
    State.toNat_outHalfSize_latch s (hs.half_le.trans_lt (by decide))⟩

/-- Settles O33: both branches of the completion; without the flag HALF_SIZE and ACTIVE_BASE read 0. -/
theorem shutdownReleasesOrIsEstate : Obligations.ShutdownReleasesOrIsEstate :=
  ⟨fun _ hi => ⟨_, execShutdown_latched hi, rfl, rfl, rfl, rfl, rfl, rfl⟩, fun _ hi => execShutdown_estate hi⟩

end Sys2Proof.Machine

/-! ### PRESENT: conversion, errors and frames in a row (R150 to R165) -/

namespace Sys2Proof.Machine

section
variable {s : State}

/-! #### The completion step without a geometry and with a bus error -/

theorem execPresent_estate (hi : s.initFlag = false) : execPresent s = .next (s.raiseErr .estate) := by
  simp [execPresent, hi]

/-- An error region on the surface or the target, and no device or silent one, makes the accesses meet an error. -/
theorem State.presentPort_error (hds : s.ClearOf .device s.sourceSpan) (hdt : s.ClearOf .device s.targetSpan)
    (hss : s.ClearOf .silent s.sourceSpan) (hst : s.ClearOf .silent s.targetSpan)
    (he : s.Hits .error s.sourceSpan ∨ s.Hits .error s.targetSpan) : s.presentPort = .error :=
  State.portResult_error (by simpa using ⟨hds, hdt⟩) (by simpa using ⟨hss, hst⟩) (by simpa using he)

/-! #### Memory after an unraced PRESENT (R153, R154, R155) -/

theorem State.Unraced.not_mem {q : Span} (h : s.Unraced q) {a : Nat} (ha : q.contains a = true) : a ∉ s.raced :=
  fun hr => Bool.noConfusion ((h a hr).symm.trans ha)

/-- Where the inactive half is unraced, so are the texels in it. -/
theorem State.unraced_target (hg : s.geom.Legal) (h : s.Unraced s.inactiveSpan) : s.Unraced s.targetSpan :=
  fun _ hr => Bool.eq_false_iff.2 fun ht => h.not_mem (State.target_inactive hg ht) hr

/-- Byte c of texel j is that of the color of pixel j (R153): texel j is half j mod 2 of pair j / 2. -/
theorem State.read_presented_texel (hg : s.geom.Legal) (hm : s.mem.wf) (hs : s.Unraced s.sourceSpan)
    (ht : s.Unraced s.targetSpan) {j c : Nat} (hj : j < s.geom.n) (hc : c < 4) :
    s.presented.read (s.inactiveBase + 4 * j + c) =
      (s.ct.get (s.mem.read (s.geom.log.toNat + j))).extractLsb' (8 * c) 8 := by
  have haddr : s.inactiveBase + 4 * j + c = s.inactiveBase + 8 * (j / 2) + (4 * (j % 2) + c) := by omega
  have htexel : 2 * (j / 2) + (4 * (j % 2) + c) / 4 = j := by omega
  have hbyte : (4 * (j % 2) + c) % 4 = c := by omega
  have htarget : s.targetSpan.contains (s.inactiveBase + 4 * j + c) = true := by
    rw [State.targetSpan_contains]; omega
  have hfree := ht.not_mem htarget
  rw [haddr] at hfree ⊢
  rw [State.read_presented_pair hg hm (by omega) (by omega) hfree, htexel, hbyte, State.texel_unraced hg hs hj]

/-- No byte outside the texels changes, the padding of the half among them (R155). -/
theorem State.read_presented_outside (hg : s.geom.Legal) (hm : s.mem.wf) (hr : s.Unraced s.inactiveSpan) {a : Nat}
    (ha : ¬ s.targetSpan.contains a = true) : s.presented.read a = s.mem.read a := by
  rw [State.read_presented hg hm, if_neg fun h => hr.not_mem h.2 h.1, if_neg ha]

/-- The 32-bit word at D + 4j is the color of pixel j (R153). -/
theorem State.read32_presented (hg : s.geom.Legal) (hm : s.mem.wf) (hs : s.Unraced s.sourceSpan)
    (ht : s.Unraced s.targetSpan) {j : Nat} (hj : j < s.geom.n) :
    s.presented.read32 (s.inactiveBase + 4 * j) = s.ct.get (s.mem.read (s.geom.log.toNat + j)) :=
  Memory.read32_of_bytes fun _ hc => State.read_presented_texel hg hm hs ht hj hc

end

/-- Settles O38: the flag is looked at before the memory port is. -/
theorem presentWithoutGeometryIsEstate : Obligations.PresentWithoutGeometryIsEstate := fun _ hi =>
  execPresent_estate hi

/-- Settles O34: the frame completes with the converted memory, which is read off texel by texel and outside them. -/
theorem presentConvertsTheSurface : Obligations.PresentConvertsTheSurface := by
  intro s hi hg hm hs ht hus hui
  rw [← State.inactiveBase_eq]
  refine ⟨s.presented, execPresent_clear hi hs ht, fun j c hj hc => ?_, fun a ha => ?_⟩
  · exact State.read_presented_texel hg hm hus (State.unraced_target hg hui) hj hc
  · exact State.read_presented_outside hg hm hui (by rw [State.targetSpan_contains]; omega)

/-- Settles O35: pair k is texels 2k and 2k + 1, both on the surface as N is even, and a 64-bit read is their two
32-bit reads side by side. -/
theorem presentPacksPairs : Obligations.PresentPacksPairs := by
  intro s t hi hg hm hs ht hus hut hx k hk
  obtain rfl : s.afterFrame s.presented = t :=
    Host.Outcome.next.inj ((execPresent_clear hi hs ht).symm.trans hx)
  have hodd : 2 * k + 1 < s.geom.n := by have hn := hg.blocks; omega
  have hlow : s.presented.read32 (s.inactiveBase + 8 * k) = s.ct.get (s.mem.read (s.geom.log.toNat + 2 * k)) := by
    rw [show 8 * k = 4 * (2 * k) by omega]
    exact State.read32_presented hg hm hus hut hk
  have hhigh : s.presented.read32 (s.inactiveBase + 8 * k + 4) =
      s.ct.get (s.mem.read (s.geom.log.toNat + 2 * k + 1)) := by
    rw [show s.inactiveBase + 8 * k + 4 = s.inactiveBase + 4 * (2 * k + 1) by omega]
    exact State.read32_presented hg hm hus hut hodd
  refine ⟨?_, hlow, hhigh⟩
  show s.presented.read64 _ = _
  rw [Memory.read64_eq, hlow, hhigh]

/-- Settles O37: the memory of a spoiled PRESENT is free on the target and on the raced bytes of its half, which is
apart from the active half, and as before elsewhere. -/
theorem presentBusErrorIsEbus : Obligations.PresentBusErrorIsEbus := by
  intro s hi hg hm hds hdt hss hst he
  have outside : ∀ a, ¬ (a ∈ s.raced ∧ s.inactiveSpan.contains a = true) → ¬ s.targetSpan.contains a = true →
      s.spoiled.read a = s.mem.read a := fun a hr ht => by
    rw [State.read_spoiled hg hm, if_neg (not_or.2 ⟨hr, ht⟩)]
  refine ⟨s.spoiled, execPresent_error hi (State.presentPort_error hds hdt hss hst he), fun a ha => ?_,
    fun a ht hr => ?_, fun a hlo hhi => ?_⟩
  · rw [State.read_spoiled hg hm, if_pos ha.symm]
  · refine outside a (fun h => ?_) (Bool.eq_false_iff.1 ht)
    exact hr.elim (· h.1) fun hhalf => Bool.eq_false_iff.1 hhalf h.2
  · have hhalf : ¬ s.inactiveSpan.contains a = true := fun h => State.inactive_not_active h ⟨hlo, hhi⟩
    exact outside a (fun h => hhalf h.2) fun h => hhalf (State.target_inactive hg h)

/-! #### One frame: the CMD write of a PRESENT, and the engine's step (R32, R157, R158, R161) -/

section
variable (s : State) (m : Memory)

@[simp] theorem State.afterFrame_initFlag : (s.afterFrame m).initFlag = s.initFlag := rfl
@[simp] theorem State.afterFrame_geom : (s.afterFrame m).geom = s.geom := rfl
@[simp] theorem State.afterFrame_bus : (s.afterFrame m).bus = s.bus := rfl
@[simp] theorem State.afterFrame_active : (s.afterFrame m).active = !s.active := rfl
@[simp] theorem State.afterFrame_frameCount : (s.afterFrame m).frameCount = s.frameCount + 1 := rfl
@[simp] theorem State.afterFrame_statDue :
    (s.afterFrame m).statDue = (s.statDue || decide ((s.frameCount + 1).toNat % 512 = 0)) := rfl
@[simp] theorem State.afterFrame_pending : (s.afterFrame m).pending = none := rfl
@[simp] theorem State.afterFrame_inbox : (s.afterFrame m).inbox = s.inbox := rfl

end

/-- What every frame finds: a latched geometry, and no bus region on the surface or the texels of either half. -/
structure State.PresentReady (s : State) : Prop where
  latched : s.initFlag = true
  source : s.Clear s.sourceSpan
  halves : ∀ b, s.Clear { lo := s.geom.halfBase b, len := 4 * s.geom.n }

theorem State.PresentReady.of_eq {s t : State} (h : s.PresentReady) (hi : t.initFlag = s.initFlag)
    (hg : t.geom = s.geom) (hb : t.bus = s.bus) : t.PresentReady where
  latched := hi.trans h.latched
  source := by simpa only [State.Clear, State.sourceSpan, hg, hb] using h.source
  halves := by simpa only [State.Clear, hg, hb] using h.halves

/-- The target of a PRESENT is one of the two halves, whichever is inactive. -/
theorem State.PresentReady.target {s : State} (h : s.PresentReady) : s.Clear s.targetSpan := h.halves _

/-- The state after the CMD write of a PRESENT at an idle engine; `step_presentWrite` ties it to the step. -/
def State.afterPresentWrite (s : State) : State :=
  { s.takeEvent.respond .written with pending := some { op := .present, raced := [] } }

section
variable (s : State)

@[simp] theorem State.afterPresentWrite_initFlag : s.afterPresentWrite.initFlag = s.initFlag := rfl
@[simp] theorem State.afterPresentWrite_geom : s.afterPresentWrite.geom = s.geom := rfl
@[simp] theorem State.afterPresentWrite_bus : s.afterPresentWrite.bus = s.bus := rfl
@[simp] theorem State.afterPresentWrite_active : s.afterPresentWrite.active = s.active := rfl
@[simp] theorem State.afterPresentWrite_frameCount : s.afterPresentWrite.frameCount = s.frameCount := rfl
@[simp] theorem State.afterPresentWrite_statDue : s.afterPresentWrite.statDue = s.statDue := rfl
@[simp] theorem State.afterPresentWrite_inbox : s.afterPresentWrite.inbox = s.inbox.tail := rfl

end

/-- The CMD write of a PRESENT at an idle engine (R233). -/
theorem step_presentWrite {s : State} (he : s.nextEvent = cmdWrite 0x3#32) (hp : s.pending = none) :
    step s = .next s.afterPresentWrite := by
  rw [step_cmdWrite he, issue_of_sample decodeCommand_present rfl,
    State.accept_idle (s := s.takeEvent.respond .written) hp]
  rfl

/-- The engine completes a pending PRESENT whose accesses all get data. -/
theorem step_presentEngine {s : State} {raced : List Nat} (he : s.nextEvent = .engine)
    (hp : s.pending = some { op := .present, raced := raced }) (h : s.PresentReady) :
    step s = .next (s.takeEvent.afterFrame s.presented) :=
  (step_engine he hp).trans (execPresent_clear (s := s.takeEvent) h.latched h.source h.target)

/-- The counter wraps at a multiple of 512, so its wrap is no matter for the trigger (R161). -/
theorem frameCount_succ_add_mod (c : Word) (j : Nat) : ((c + 1).toNat + j) % 512 = (c.toNat + 1 + j) % 512 := by
  have hadd : (c + 1).toNat = (c.toNat + 1) % 2 ^ 32 := BitVec.toNat_add c 1
  omega

/-- What one frame does, in two steps (R157, R158, R161). -/
theorem State.PresentReady.run_frame {s : State} {es : List Event} (h : s.PresentReady) (hp : s.pending = none)
    (hbox : s.inbox = cmdWrite 0x3#32 :: .engine :: es) (k : Nat) :
    ∃ u : State, core.run (k + 2) s = core.run k u ∧ u.PresentReady ∧ u.pending = none ∧ u.inbox = es ∧
      u.geom = s.geom ∧ u.active = !s.active ∧ u.frameCount = s.frameCount + 1 ∧
      (u.statDue = true ↔ s.statDue = true ∨ (s.frameCount.toNat + 1) % 512 = 0) := by
  have hwrite := step_presentWrite (nextEvent_cons hbox) hp
  have hnext : s.afterPresentWrite.inbox = .engine :: es := by simp [hbox]
  have hready : s.afterPresentWrite.PresentReady := h.of_eq (by simp) (by simp) (by simp)
  have hengine := step_presentEngine (nextEvent_cons hnext) rfl hready
  exact ⟨_, (run_succ (M := core) hwrite (k + 1)).trans (run_succ (M := core) hengine k),
    h.of_eq (by simp) (by simp) (by simp), by simp, by simp [hbox], by simp, by simp, by simp, by simp⟩

/-! #### Frames in a row -/

/-- The active half after one more frame. -/
theorem toggled_succ (b : Bool) (k : Nat) : ((!b) ^^ decide (k % 2 = 1)) = (b ^^ decide ((k + 1) % 2 = 1)) := by
  rcases Nat.mod_two_eq_zero_or_one k with hk | hk <;> simp [Nat.succ_mod_two_eq_one_iff, hk]

/-- The counter after one more frame. -/
theorem count_succ (c : Word) (k : Nat) : c + 1 + BitVec.ofNat 32 k = c + BitVec.ofNat 32 (k + 1) := by
  rw [BitVec.add_assoc, Nat.add_comm k 1, BitVec.ofNat_add]
  rfl

/-- Of `k + 1` counts in a row, a multiple of 512 is the first or among the `k` after it. -/
theorem exists_trigger_succ (c k : Nat) :
    (∃ j, 1 ≤ j ∧ j ≤ k + 1 ∧ (c + j) % 512 = 0) ↔
      (c + 1) % 512 = 0 ∨ ∃ j, 1 ≤ j ∧ j ≤ k ∧ (c + 1 + j) % 512 = 0 := by
  constructor
  · rintro ⟨j, hlo, hhi, hj⟩
    obtain rfl | hne := eq_or_ne j 1
    · exact .inl hj
    · exact .inr ⟨j - 1, by omega, by omega, by rwa [show c + 1 + (j - 1) = c + j by omega]⟩
  · rintro (h | ⟨j, hlo, hhi, hj⟩)
    · exact ⟨1, le_rfl, by omega, h⟩
    · exact ⟨j + 1, by omega, by omega, by rwa [show c + (j + 1) = c + 1 + j by omega]⟩

/-- Settles O42, by induction on the number of frames: the first takes two steps and leaves the machine ready. -/
theorem framesAlternateAndCount : Obligations.FramesAlternateAndCount := by
  intro k
  induction k with
  | zero =>
    intro s es _ hp _ _ hbox
    exact ⟨s, rfl, hbox, hp, rfl, by simp, by simp, by simp⟩
  | succ k ih =>
    intro s es hi hp hs hh hbox
    have hready : s.PresentReady := ⟨hi, hs, hh⟩
    obtain ⟨u, hrun, ⟨hi', hs', hh'⟩, hp', hbox', hgeom, hactive, hcount, hdue⟩ := hready.run_frame hp hbox (2 * k)
    obtain ⟨t, hrun', hes, hidle, hgeom', hactive', hcount', hdue'⟩ := ih u es hi' hp' hs' hh' hbox'
    refine ⟨t, hrun.trans hrun', hes, hidle, hgeom'.trans hgeom, ?_, ?_, ?_⟩
    · rw [hactive', hactive, toggled_succ]
    · rw [hcount', hcount, count_succ]
    · simp only [hdue', hdue, hcount, frameCount_succ_add_mod, exists_trigger_succ, or_assoc]

end Sys2Proof.Machine

/-! ### SET_PALETTE and SET_GAMMA: completions (R181 to R188) -/

namespace Sys2Proof.Machine

section
variable {s : State}

theorem execSetPalette_erange (hf : 2 ^ 64 < s.paletteSource + 768) :
    execSetPalette s = .next (s.raiseErr .erange) := if_pos hf

theorem execSetPalette_error (hf : s.paletteSource + 768 ≤ 2 ^ 64) (hp : s.palettePort = .error) :
    execSetPalette s = .next (s.stageUnknown.draw.raiseErr .ebus) := by
  rw [execSetPalette, if_neg (Nat.not_lt.2 hf), hp]

/-- An error region on the palette buffer, and no device or silent one, makes the reads meet an error. -/
theorem State.palettePort_error (hd : s.ClearOf .device s.paletteSpan) (hs : s.ClearOf .silent s.paletteSpan)
    (he : s.Hits .error s.paletteSpan) : s.palettePort = .error :=
  State.portResult_error (List.forall_mem_singleton.2 hd) (List.forall_mem_singleton.2 hs)
    ⟨_, List.mem_singleton_self _, he⟩

theorem execSetGamma_ok {level : Byte} (hl : level.toNat < Config.numGammaLevels) :
    execSetGamma level s = .next { s with gamma := level }.complete := if_neg (Nat.not_le.2 hl)

theorem execSetGamma_egamma {level : Byte} (hl : ¬ level.toNat < Config.numGammaLevels) :
    execSetGamma level s = .next (s.raiseErr .egamma) := if_pos (Nat.not_lt.1 hl)

/-- The three bytes of triple `i` lie in the palette buffer (R182). -/
theorem palette_contains_triple (ps : Nat) (i : Byte) {b : Nat} (hb : b < 3) :
    Span.contains { lo := ps, len := 768 } (ps + 3 * i.toNat + b) = true := by
  have hi : i.toNat < 256 := i.isLt
  simp only [Span.contains_iff]
  omega

end

/-- Settles O45: the buffer is unraced, so each entry is the unraced case of `setPaletteUnderRaces`; at level 0 the
lookup is the identity. -/
theorem setPaletteRebuildsTheTables : Obligations.SetPaletteRebuildsTheTables := by
  intro s ps raced hp hf hclear hunraced
  obtain ⟨c, p, hexec, hentry⟩ := setPaletteUnderRaces s ps raced hp hf hclear
  obtain ⟨-, hraced, -⟩ := State.palette_of_pending hp
  have hfree (i : Byte) : ∀ b, b < 3 → ps.toNat + 3 * i.toNat + b ∉ raced := fun b hb =>
    hraced ▸ hunraced.not_mem (palette_contains_triple ps.toNat i hb)
  refine ⟨c, p, hexec, fun i => ?_, fun hg i => ?_⟩ <;> obtain ⟨-, -, hnew⟩ := hentry i
  · exact hnew (hfree i)
  · obtain ⟨hcolor, -⟩ := hnew (hfree i)
    simpa only [hg, Config.gammaLut_zero] using hcolor

/-- Settles O46: the range check comes before the port is looked at; after an error only the staging storage is
written. -/
theorem setPaletteErrorsKeepTheTables : Obligations.SetPaletteErrorsKeepTheTables := by
  refine ⟨fun s ps raced hp hf => ?_, fun s ps raced hp hf hd hs he => ?_⟩ <;>
    obtain ⟨hsrc, -, hspan⟩ := State.palette_of_pending hp
  · exact execSetPalette_erange (hsrc ▸ hf)
  · rw [← hspan] at hd hs he
    exact ⟨_, _, execSetPalette_error (hsrc ▸ hf) (State.palettePort_error hd hs he)⟩

/-- Settles O48: the level exists or it does not; level 0 exists as there is at least one level. -/
theorem setGammaSetsTheLevelOnly : Obligations.SetGammaSetsTheLevelOnly := by
  refine fun s level => ⟨?_, execSetGamma_ok Config.one_le_numGammaLevels⟩
  by_cases hl : level.toNat < Config.numGammaLevels
  · simp only [if_pos hl]
    exact execSetGamma_ok hl
  · simp only [if_neg hl]
    exact execSetGamma_egamma hl

end Sys2Proof.Machine

/-! ### NEAREST: decoding, distance and search (R189 to R193) -/

namespace Sys2Proof.Machine

/-! #### decode565 on numbers (R190) -/

/-- A channel with `k` low zero bits is its field scaled by 2^k. -/
theorem toNat_append_zero {n : Nat} (x : BitVec n) (k : Nat) : (x ++ 0#k).toNat = x.toNat * 2 ^ k := by
  rw [BitVec.toNat_append, BitVec.toNat_zero, Nat.or_zero, Nat.shiftLeft_eq]

@[simp] theorem toNat_red565 (p : Half) : (red565 p).toNat = p.toNat / 2 ^ 11 * 8 := by
  have hp : p.toNat < 2 ^ 16 := p.isLt
  rw [red565, toNat_append_zero, BitVec.extractLsb'_toNat, Nat.shiftRight_eq_div_pow]
  omega

@[simp] theorem toNat_green565 (p : Half) : (green565 p).toNat = p.toNat / 2 ^ 5 % 64 * 4 := by
  rw [green565, toNat_append_zero, BitVec.extractLsb'_toNat, Nat.shiftRight_eq_div_pow]
  rfl

@[simp] theorem toNat_blue565 (p : Half) : (blue565 p).toNat = p.toNat % 32 * 8 := by
  rw [blue565, toNat_append_zero, BitVec.extractLsb'_toNat, Nat.shiftRight_zero]
  rfl

theorem red565_le (p : Half) : (red565 p).toNat ≤ 248 := by
  have hp : p.toNat < 2 ^ 16 := p.isLt
  rw [toNat_red565]
  omega

theorem green565_le (p : Half) : (green565 p).toNat ≤ 252 := by
  rw [toNat_green565]
  omega

theorem blue565_le (p : Half) : (blue565 p).toNat ≤ 248 := by
  rw [toNat_blue565]
  omega

/-- The decoded color of an entry is made of the three channels the search compares with. -/
theorem decoded565_eq (p : Half) :
    decoded565 p = (((red565 p).toNat : Int), ((green565 p).toNat : Int), ((blue565 p).toNat : Int)) := by
  rw [toNat_red565, toNat_green565, toNat_blue565]
  rfl

theorem red565_eq_shift (p : Half) : red565 p = (p >>> 11).setWidth 8 <<< 3 := by
  have hp : p.toNat < 2 ^ 16 := p.isLt
  apply BitVec.eq_of_toNat_eq
  rw [toNat_red565, BitVec.toNat_shiftLeft, BitVec.toNat_setWidth, BitVec.toNat_ushiftRight, Nat.shiftLeft_eq,
    Nat.shiftRight_eq_div_pow]
  omega

theorem green565_eq_shift (p : Half) : green565 p = ((p >>> 5) &&& 0x3F#16).setWidth 8 <<< 2 := by
  have hmask : ((p >>> 5) &&& 0x3F#16).toNat = p.toNat / 2 ^ 5 % 64 := by
    rw [BitVec.toNat_and, BitVec.toNat_ushiftRight, Nat.shiftRight_eq_div_pow]
    exact Nat.and_two_pow_sub_one_eq_mod _ 6
  apply BitVec.eq_of_toNat_eq
  rw [toNat_green565, BitVec.toNat_shiftLeft, BitVec.toNat_setWidth, hmask, Nat.shiftLeft_eq]
  omega

theorem blue565_eq_shift (p : Half) : blue565 p = (p &&& 0x1F#16).setWidth 8 <<< 3 := by
  have hmask : (p &&& 0x1F#16).toNat = p.toNat % 32 := Nat.and_two_pow_sub_one_eq_mod _ 5
  apply BitVec.eq_of_toNat_eq
  rw [toNat_blue565, BitVec.toNat_shiftLeft, BitVec.toNat_setWidth, hmask, Nat.shiftLeft_eq]
  omega

/-- Settles O49: both sides are the same number, a field of the entry scaled by 8, 4 or 8. -/
theorem decode565Channels : Obligations.Decode565Channels := fun p =>
  ⟨red565_eq_shift p, green565_eq_shift p, blue565_eq_shift p, red565_le p, green565_le p, blue565_le p⟩

/-! #### The distance (R191) -/

theorem squaredDifference_cast (x y : Byte) :
    (squaredDifference x y : Int) = ((x.toNat : Int) - (y.toNat : Int)) ^ 2 := by
  rw [squaredDifference, Int.toNat_of_nonneg (mul_self_nonneg _), sq]

theorem squaredDifference_eq_zero_iff (x y : Byte) : squaredDifference x y = 0 ↔ y.toNat = x.toNat := by
  rw [← Nat.cast_eq_zero (R := Int), squaredDifference_cast, sq_eq_zero_iff, sub_eq_zero, Nat.cast_inj, eq_comm]

theorem colorDistance_cast (r g b : Byte) (p : Half) : (colorDistance r g b p : Int) = squaredDistance r g b p := by
  rw [squaredDistance, decoded565_eq]
  simp only [colorDistance, Nat.cast_add, squaredDifference_cast]

/-- A channel against a decoded channel: the difference is in −252..255 and its square in 0..65025. -/
theorem channelDifference_bounds (x : Byte) {y : Nat} (hy : y ≤ 252) :
    -252 ≤ (x.toNat : Int) - y ∧ (x.toNat : Int) - y ≤ 255 ∧
      0 ≤ ((x.toNat : Int) - y) ^ 2 ∧ ((x.toNat : Int) - y) ^ 2 ≤ 65025 := by
  have hx : x.toNat < 256 := x.isLt
  have hlo : -252 ≤ (x.toNat : Int) - y := by omega
  have hhi : (x.toNat : Int) - y ≤ 255 := by omega
  exact ⟨hlo, hhi, sq_nonneg _, sq_le_sq' (b := 255) (by omega) hhi⟩

theorem squaredDistance_le (r g b : Byte) (p : Half) : squaredDistance r g b p ≤ 195075 := by
  obtain ⟨-, -, -, hr⟩ := channelDifference_bounds r ((red565_le p).trans (by decide))
  obtain ⟨-, -, -, hg⟩ := channelDifference_bounds g (green565_le p)
  obtain ⟨-, -, -, hb⟩ := channelDifference_bounds b ((blue565_le p).trans (by decide))
  rw [squaredDistance, decoded565_eq]
  linarith only [hr, hg, hb]

theorem colorDistance_le (r g b : Byte) (p : Half) : colorDistance r g b p ≤ 195075 := by
  have hle := squaredDistance_le r g b p
  rw [← colorDistance_cast] at hle
  exact_mod_cast hle

/-- Settles O50: three squares of at most 65025 each. -/
theorem distanceIsExact : Obligations.DistanceIsExact := by
  intro r g b p
  have hle := colorDistance_le r g b p
  refine ⟨colorDistance_cast r g b p, ?_, hle, by omega, by omega⟩
  rw [decoded565_eq]
  rintro d (rfl | rfl | rfl)
  · exact channelDifference_bounds r ((red565_le p).trans (by decide))
  · exact channelDifference_bounds g (green565_le p)
  · exact channelDifference_bounds b ((blue565_le p).trans (by decide))

/-- The distance is 0 exactly at the decoded color of the entry. -/
theorem colorDistance_eq_zero_iff (r g b : Byte) (p : Half) :
    colorDistance r g b p = 0 ↔ decoded565 p = ((r.toNat : Int), (g.toNat : Int), (b.toNat : Int)) := by
  simp only [colorDistance, decoded565_eq, Nat.add_eq_zero_iff, squaredDifference_eq_zero_iff, and_assoc,
    Prod.mk.injEq, Nat.cast_inj]

/-! #### The search (R189, R192) -/

theorem Table.getElem_toList {w : Nat} (t : Table w) (i : Byte) (h : i.toNat < t.toList.length) :
    t.toList[i.toNat] = t.get i := Vector.getElem_toList _

/-- The search answers the first index of the minimum: the start distance is above every distance, so entry 0 is a
candidate. -/
theorem nearestIndex_least (r g b : Byte) (t : Table 16) :
    (∀ i, colorDistance r g b (t.get (nearestIndex r g b t)) ≤ colorDistance r g b (t.get i)) ∧
      ∀ i, i.toNat < (nearestIndex r g b t).toNat →
        colorDistance r g b (t.get (nearestIndex r g b t)) < colorDistance r g b (t.get i) := by
  have hlen : t.toList.length = 256 := Vector.length_toList
  obtain ⟨-, hall⟩ | ⟨j, hj, hfrom, -, hmin, hfirst⟩ := nearestFrom_spec r g b t.toList 0 0 (2 ^ 32 - 1)
  · have hmem : t.toList[0] ∈ t.toList := List.getElem_mem (by omega)
    have hfar := (hall _ hmem).1
    have hnear := colorDistance_le r g b t.toList[0]
    omega
  · have hk : (nearestIndex r g b t).toNat = j := by
      rw [nearestIndex, hfrom, BitVec.toNat_ofNat]
      omega
    have hget : t.toList[j] = t.get (nearestIndex r g b t) := by
      rw [← Table.getElem_toList t _ (by omega)]
      simp only [hk]
    rw [hget] at hmin hfirst
    refine ⟨fun i => ?_, fun i hi => ?_⟩ <;> rw [← Table.getElem_toList t i (by omega)]
    · exact hmin i.toNat (by omega)
    · exact hfirst i.toNat (by omega)

/-- Settles O51: an exact match is at distance 0, below which no entry is. -/
theorem nearestIsTheLeastIndexOfTheMinimum : Obligations.NearestIsTheLeastIndexOfTheMinimum := by
  intro s r g b
  obtain ⟨hmin, hfirst⟩ := nearestIndex_least r g b s.p565
  simp only [← colorDistance_cast, Nat.cast_le, Nat.cast_lt]
  refine ⟨nearestIndex r g b s.p565, rfl, hmin, hfirst, fun e he => ?_⟩
  have hzero : colorDistance r g b (s.p565.get e) = 0 := (colorDistance_eq_zero_iff ..).2 he
  have hexact : colorDistance r g b (s.p565.get (nearestIndex r g b s.p565)) = 0 :=
    Nat.eq_zero_of_le_zero (hzero ▸ hmin e)
  refine ⟨((colorDistance_eq_zero_iff ..).1 hexact).trans he.symm, Nat.le_of_not_lt fun hlt => ?_⟩
  exact Nat.not_lt_zero _ (hzero ▸ hfirst e hlt)

/-- Settles O52: all distances are equal, so the least index of the minimum is 0. -/
theorem nearestBeforeAnyPaletteIsZero : Obligations.NearestBeforeAnyPaletteIsZero := by
  intro s r g b hzero
  obtain ⟨k, hexec, -, hfirst, -⟩ := nearestIsTheLeastIndexOfTheMinimum s r g b
  have hk : k = 0 := by
    by_contra hne
    have hlt := hfirst 0 (Nat.pos_of_ne_zero fun h0 => hne (BitVec.eq_of_toNat_eq h0))
    rw [hzero, hzero] at hlt
    exact lt_irrefl _ hlt
  rw [hexec, hk]

end Sys2Proof.Machine

/-! ### Register reads, operation by operation (R194 to R197, R212 to R218) -/

namespace Sys2Proof.Machine

theorem Geometry.halfBase_eq (g : Geometry) (b : Bool) : g.halfBase b = g.phys.toNat + (if b then g.s else 0) := by
  cases b <;> simp [Geometry.halfBase]

theorem lo32_ofNat (n : Nat) : lo32 (BitVec.ofNat 64 n) = BitVec.ofNat 32 n := by
  apply BitVec.eq_of_toNat_eq
  rw [lo32, BitVec.extractLsb'_toNat, BitVec.toNat_ofNat, BitVec.toNat_ofNat, Nat.shiftRight_zero]
  omega

theorem hi32_ofNat (n : Nat) : hi32 (BitVec.ofNat 64 n) = BitVec.ofNat 32 (n / 2 ^ 32) := by
  apply BitVec.eq_of_toNat_eq
  rw [hi32, BitVec.extractLsb'_toNat, BitVec.toNat_ofNat, BitVec.toNat_ofNat, Nat.shiftRight_eq_div_pow]
  omega

theorem State.lo32_activeBase (s : State) :
    lo32 s.activeBase =
      if s.initFlag then BitVec.ofNat 32 (s.geom.phys.toNat + (if s.active then s.geom.s else 0)) else 0 := by
  rw [State.activeBase, apply_ite lo32, lo32_ofNat, Geometry.halfBase_eq]
  rfl

theorem State.hi32_activeBase (s : State) :
    hi32 s.activeBase =
      if s.initFlag then BitVec.ofNat 32 ((s.geom.phys.toNat + (if s.active then s.geom.s else 0)) / 2 ^ 32)
      else 0 := by
  rw [State.activeBase, apply_ite hi32, hi32_ofNat, Geometry.halfBase_eq]
  rfl

/-- Settles O15: each read answers its register; only the halves of ACTIVE_BASE, which the model takes of a 64-bit
value, need an argument. -/
theorem readOperationsAnswer : Obligations.ReadOperationsAnswer := by
  intro s k
  rw [← State.lo32_activeBase, ← State.hi32_activeBase]
  exact ⟨rfl, rfl, rfl, rfl, rfl, rfl, rfl, rfl, rfl, rfl, rfl, rfl, rfl, rfl, rfl, rfl, rfl, rfl⟩

end Sys2Proof.Machine

/-! ### Accesses the port ignores (R217, R219) -/

namespace Sys2Proof.Machine

/-- The aligned offsets of the read-only registers: STATUS, GAMMA to NEAREST, and the two table windows (R23, R217). -/
def IsReadOnlyOffset (o : BitVec 12) : Prop :=
  o = 0x004#12 ∨ (0x028 ≤ o.toNat ∧ o.toNat ≤ 0x03C) ∨ (0x400 ≤ o.toNat ∧ o.toNat ≤ 0xBFC)

/-- Below the windows, the read-only registers are the slots 1 and 10 to 15 (R23, R217). -/
theorem slot_of_readOnly : ∀ k : Fin 16, IsReadOnlyOffset (BitVec.ofNat 12 (4 * k.val)) → k = 1 ∨ 10 ≤ k := by
  unfold IsReadOnlyOffset
  decide

/-- A write at a read-only offset is only answered (R217). -/
theorem exec_decodeWrite_readOnly {o : BitVec 12} (ha : o.toNat % 4 = 0) (hro : IsReadOnlyOffset o) (v : Word)
    (s : State) : exec (decodeWrite o v) s = .next (s.respond .written) := by
  obtain ⟨k, rfl⟩ | ⟨-, -, hs⟩ | ⟨-, -, hs⟩ | ⟨hr, -⟩ := slotOf_cases o ha
  · obtain rfl | hk := slot_of_readOnly k hro
    · rfl
    · obtain ⟨k, hlt⟩ := k
      replace hk : 10 ≤ k := hk
      interval_cases k <;> rfl
  · rw [decodeWrite, hs]
    rfl
  · rw [decodeWrite, hs]
    rfl
  · simp only [isReservedOffset, Bool.or_eq_true, Bool.and_eq_true, decide_eq_true_eq] at hr
    obtain rfl | hro | hro := hro
    · simp at hr
    all_goals omega

/-- Settles O13: the step is the write at that offset, which only answers; each of the nine operations does so by
definition. -/
theorem readOnlyWritesAreIgnored : Obligations.ReadOnlyWritesAreIgnored := by
  refine ⟨fun s o v es hbox ha hro => ?_, fun _ _ _ => ⟨rfl, rfl, rfl, rfl, rfl, rfl, rfl, rfl, rfl⟩⟩
  have hd : decode (writeAccess o v) = .ok (decodeWrite o v) := decode_write (by simpa [isAligned] using ha) v
  rw [step_access (nextEvent_cons hbox) hd, exec_decodeWrite_readOnly ha hro, State.takeEvent_cons hbox]
  rfl

/-- The ranges of R219 are the model's reserved offsets. -/
theorem isReservedOffset_of_ranges {o : BitVec 12} (h : (0x040 ≤ o.toNat ∧ o.toNat ≤ 0x3FC) ∨ 0xC00 ≤ o.toNat) :
    isReservedOffset o = true := by
  simp only [isReservedOffset, Bool.or_eq_true, Bool.and_eq_true, decide_eq_true_eq]
  omega

/-- Settles O14: the access decodes to the operation of its reserved offset, which answers by its direction and changes
nothing. -/
theorem reservedOffsetsReadZero : Obligations.ReservedOffsetsReadZero := by
  refine ⟨fun s a es hbox hsize ha hr => ?_, fun _ _ _ => ⟨rfl, rfl⟩⟩
  obtain ⟨o, size, dir⟩ := a
  obtain rfl : size = .b4 := hsize
  have hd := decode_reservedOffset (by simpa [isAligned] using ha) (isReservedOffset_of_ranges hr) dir
  rw [step_access (nextEvent_cons hbox) hd, State.takeEvent_cons hbox]
  cases dir with
  | read => rfl
  | write v => rfl

end Sys2Proof.Machine

/-! ### A recorded error: it stays, and it blocks nothing (R234) -/

namespace Sys2Proof.Machine

/-- Settles O23: of the writers of ERR, the completions and the rejected CMD writes find it 0. -/
theorem firstErrorStays : Obligations.FirstErrorStays := by
  intro s t hstep herr
  by_cases hr : s.nextEvent = .reset
  · exact .inr (.inl hr)
  by_cases hsame : t.err = s.err
  · exact .inl hsame
  obtain ⟨hzero, -⟩ | ⟨hzero, -⟩ | ⟨-, hack⟩ := step_err hstep hr hsame
  · exact absurd hzero herr
  · exact absurd hzero herr
  · exact .inr (.inr hack)

/-- The 32-bit read of STATUS (R212). -/
def readStatus : Access := { offset := 0x004#12, size := .b4, dir := .read }

/-- The state with another code in STATUS.ERR. -/
def State.withErr (s : State) (e : ErrCode) : State := { s with err := e }

section
variable (s : State) (e : ErrCode)

@[simp] theorem State.initFlag_withErr : (s.withErr e).initFlag = s.initFlag := rfl
@[simp] theorem State.pending_withErr : (s.withErr e).pending = s.pending := rfl
@[simp] theorem State.initOperands_withErr : (s.withErr e).initOperands = s.initOperands := rfl
@[simp] theorem State.presentPort_withErr : (s.withErr e).presentPort = s.presentPort := rfl
@[simp] theorem State.paletteSource_withErr : (s.withErr e).paletteSource = s.paletteSource := rfl
@[simp] theorem State.palettePort_withErr : (s.withErr e).palettePort = s.palettePort := rfl
@[simp] theorem State.nextEvent_withErr : (s.withErr e).nextEvent = s.nextEvent := rfl
@[simp] theorem State.takeEvent_withErr : (s.withErr e).takeEvent = s.takeEvent.withErr e := rfl

theorem Command.sample_withErr (c : Command) : Command.sample c (s.withErr e) = Command.sample c s := by
  cases c <;> rfl

/-- No register but STATUS shows ERR (R212). -/
theorem State.registerValue_withErr {n : Nat} (hn : n ≠ 0x004) :
    (s.withErr e).registerValue n = s.registerValue n := by
  rw [State.registerValue, State.registerValue, if_neg hn, if_neg hn]
  rfl

/-! #### Completions -/

theorem execInit_withErr : ∃ e', execInit (s.withErr e) = mapNext (·.withErr e') (execInit s) := by
  unfold execInit
  rw [State.initFlag_withErr, State.initOperands_withErr]
  cases s.initFlag
  · cases geometryOf s.initOperands <;> exact ⟨_, rfl⟩
  · exact ⟨_, rfl⟩

theorem execShutdown_withErr : ∃ e', execShutdown (s.withErr e) = mapNext (·.withErr e') (execShutdown s) := by
  unfold execShutdown
  rw [State.initFlag_withErr]
  cases s.initFlag <;> exact ⟨_, rfl⟩

theorem execPresent_withErr : ∃ e', execPresent (s.withErr e) = mapNext (·.withErr e') (execPresent s) := by
  unfold execPresent
  rw [State.initFlag_withErr, State.presentPort_withErr]
  cases s.initFlag
  · exact ⟨_, rfl⟩
  · cases s.presentPort
    case device => exact ⟨e, rfl⟩
    all_goals exact ⟨_, rfl⟩

theorem execSetPalette_withErr : ∃ e', execSetPalette (s.withErr e) = mapNext (·.withErr e') (execSetPalette s) := by
  unfold execSetPalette
  rw [State.paletteSource_withErr, State.palettePort_withErr]
  split
  · exact ⟨_, rfl⟩
  · cases s.palettePort
    case device => exact ⟨e, rfl⟩
    all_goals exact ⟨_, rfl⟩

theorem execSetGamma_withErr (level : Byte) :
    ∃ e', execSetGamma level (s.withErr e) = mapNext (·.withErr e') (execSetGamma level s) := by
  unfold execSetGamma
  split <;> exact ⟨_, rfl⟩

/-- A completion does the same whatever STATUS.ERR holds, but for STATUS.ERR. -/
theorem completion_withErr (op : PendingOp) :
    ∃ e', exec op.toInstr (s.withErr e) = mapNext (·.withErr e') (exec op.toInstr s) := by
  cases op with
  | init w h lb pb => exact execInit_withErr s e
  | shutdown => exact execShutdown_withErr s e
  | present => exact execPresent_withErr s e
  | setPalette ps => exact execSetPalette_withErr s e
  | setGamma level => exact execSetGamma_withErr s e level
  | nearest r g b => exact ⟨e, rfl⟩

/-! #### Host accesses -/

theorem State.accept_withErr (op : PendingOp) : ∃ e', (s.withErr e).accept op = (s.accept op).withErr e' := by
  by_cases hp : s.pending = none
  · rw [State.accept_idle hp, State.accept_idle (s := s.withErr e) hp]
    exact ⟨e, rfl⟩
  · rw [State.accept_busy hp, State.accept_busy (s := s.withErr e) hp]
    exact ⟨_, rfl⟩

theorem issue_withErr (w : Word) : ∃ e', issue w (s.withErr e) = mapNext (·.withErr e') (issue w s) := by
  cases hd : decodeCommand w with
  | error _ =>
    rw [issue_of_decode_error hd, issue_of_decode_error hd]
    exact ⟨_, rfl⟩
  | ok c =>
    have ho' := Command.sample_withErr s e c
    cases ho : Command.sample c s with
    | some op =>
      obtain ⟨e', h⟩ := s.accept_withErr e op
      rw [issue_of_sample hd ho, issue_of_sample hd (ho'.trans ho)]
      exact ⟨e', congrArg _ h⟩
    | none =>
      rw [issue_of_sample_none hd ho, issue_of_sample_none hd (ho'.trans ho)]
      cases c <;> cases ho <;> exact ⟨_, rfl⟩

theorem exec_decodeWrite_withErr (o : BitVec 12) (v : Word) :
    ∃ e', exec (decodeWrite o v) (s.withErr e) = mapNext (·.withErr e') (exec (decodeWrite o v) s) := by
  unfold decodeWrite
  cases slotOf o
  case cmd => exact issue_withErr (s.respond .written) e v
  all_goals exact ⟨e, rfl⟩

/-- A host access but a read of STATUS does the same whatever STATUS.ERR holds, but for STATUS.ERR. -/
theorem runAccess_withErr {a : Access} (ha : a ≠ readStatus) :
    ∃ e', runAccess a (s.withErr e) = mapNext (·.withErr e') (runAccess a s) := by
  by_cases hbad : a.size ≠ .b4 ∨ a.offset.toNat % 4 ≠ 0
  · obtain ⟨_, hd⟩ := decode_badAccess hbad
    rw [runAccess, runAccess, hd]
    exact ⟨e, rfl⟩
  obtain ⟨hsize, halign⟩ : a.size = .b4 ∧ a.offset.toNat % 4 = 0 := by simpa using hbad
  obtain ⟨o, size, dir⟩ := a
  obtain rfl : size = .b4 := hsize
  replace halign : o.toNat % 4 = 0 := halign
  have hal : isAligned o = true := by simpa [isAligned] using halign
  cases dir with
  | read =>
    have hd : decode (.access ⟨o, .b4, .read⟩) = .ok (decodeRead o) := decode_read hal
    have ho : o.toNat ≠ 0x004 := fun h => by
      obtain rfl : o = 0x004#12 := BitVec.eq_of_toNat_eq h
      exact ha rfl
    simp only [runAccess, hd, exec_decodeRead_registerValue halign, s.registerValue_withErr e ho]
    exact ⟨e, rfl⟩
  | write v =>
    have hd : decode (.access ⟨o, .b4, .write v⟩) = .ok (decodeWrite o v) := decode_write hal v
    simp only [runAccess, hd]
    exact exec_decodeWrite_withErr s e o v

/-! #### Steps -/

theorem State.agentReads_withErr (a : Nat) : (s.withErr e).agentReads a = (s.agentReads a).withErr e := by
  rw [State.agentReads, State.agentReads, apply_ite (State.withErr · e)]
  rfl

theorem State.lateWrites_withErr (a : Nat) : (s.withErr e).lateWrites a = (s.lateWrites a).withErr e := by
  rw [State.lateWrites, State.lateWrites, apply_ite (State.withErr · e)]
  rfl

theorem runEngine_withErr : ∃ e', runEngine (s.withErr e) = mapNext (·.withErr e') (runEngine s) := by
  simp only [runEngine, State.pending_withErr]
  cases s.pending with
  | none => exact ⟨e, rfl⟩
  | some p => exact completion_withErr s e p.op

/-- Any event but a read of STATUS does the same whatever STATUS.ERR holds, but for STATUS.ERR. -/
theorem runEvent_withErr {ev : Event} (h : ev ≠ .access readStatus) :
    ∃ e', runEvent ev (s.withErr e) = mapNext (·.withErr e') (runEvent ev s) := by
  cases ev with
  | access a => exact runAccess_withErr s e fun ha => h (congrArg _ ha)
  | engine => exact runEngine_withErr s e
  | reset => exact ⟨.noError, rfl⟩
  | agentWrite a v => exact ⟨e, rfl⟩
  | agentRead a => exact ⟨e, congrArg _ (s.agentReads_withErr e _)⟩
  | lateWrite a => exact ⟨e, congrArg _ (s.lateWrites_withErr e _)⟩
  | bus regions => exact ⟨e, rfl⟩

end

/-- A read of STATUS only answers. -/
theorem step_readStatus {s : State} (he : s.nextEvent = .access readStatus) :
    step s = .next (s.takeEvent.respond (.data s.statusWord)) :=
  step_access (i := .rdStatus) he rfl

/-- Settles O24: a read of STATUS only answers, and every other step commutes with a change of STATUS.ERR. -/
theorem errorsBlockNothing : Obligations.ErrorsBlockNothing := by
  intro s t e hstep
  by_cases he : s.nextEvent = .access readStatus
  · rw [step_readStatus he] at hstep
    cases hstep
    exact ⟨_, step_readStatus (s := s.withErr e) he, rfl, .inr he⟩
  · obtain ⟨e', h⟩ := runEvent_withErr s.takeEvent e he
    rw [← step_eq, hstep] at h
    exact ⟨t.withErr e', h, rfl, .inl rfl⟩

end Sys2Proof.Machine

/-! ### Commands that fail, wait or are rejected (R230, R231, R238, R246, R265) -/

namespace Sys2Proof.Machine

/-- Settles O25: a completion that starts with no error and ends with one is one of the three that record an error, and
of those only the PRESENT with a bus error writes memory. -/
theorem failedCommandsAreRegisterPrecise : Obligations.FailedCommandsAreRegisterPrecise := by
  intro s t p _ hzero hx herr
  obtain rfl | ⟨_, -, rfl⟩ | ⟨-, -, _, -, rfl⟩ | ⟨-, -, rfl⟩ | ⟨hop, -, -, rfl⟩ | ⟨-, -, -, rfl⟩ | ⟨_, -, rfl⟩ |
    ⟨_, -, rfl⟩ | ⟨_, -, -, rfl⟩ | ⟨_, _, _, -, rfl⟩ := completion_cases hx
  case inr.inl => exact ⟨rfl, fun _ => rfl⟩ -- a check fails
  case inr.inr.inr.inr.inl => -- a PRESENT with a bus error
    have hcode : ((s.setMem s.spoiled).draw.raiseErr .ebus).err = .ebus := if_pos hzero
    exact ⟨rfl, fun h => (h.elim (· hop) (· hcode)).elim⟩
  case inr.inr.inr.inr.inr.inr.inl => exact ⟨rfl, fun _ => rfl⟩ -- a SET_PALETTE with a bus error
  all_goals exact absurd hzero herr

/-- An engine with a command pending rejects the command a CMD write decodes to (R233). -/
theorem exec_wrCmd_busy {s : State} (hp : s.pending ≠ none) {w : Word} {c : Command} {op : PendingOp}
    (hd : decodeCommand w = .ok c) (ho : Command.sample c (s.respond .written) = some op) :
    exec (.wrCmd w) s = .next { s with resp := .written, err := recorded s.err .ebusy } := by
  refine (issue_of_sample hd ho).trans ?_
  rw [State.accept_busy (s := s.respond .written) hp]
  rfl

/-- Settles O20: each of the six words decodes to a command that would be accepted. -/
theorem busyEngineRejectsCommands : Obligations.BusyEngineRejectsCommands := by
  intro s w l r g b hp hw
  obtain rfl | rfl | rfl | rfl | rfl | rfl := hw
  · exact exec_wrCmd_busy hp decodeCommand_init rfl
  · exact exec_wrCmd_busy hp decodeCommand_shutdown rfl
  · exact exec_wrCmd_busy hp decodeCommand_present rfl
  · exact exec_wrCmd_busy hp decodeCommand_setPalette rfl
  · rw [setGammaWord_eq]
    exact exec_wrCmd_busy hp (decodeCommand_setGamma l) rfl
  · rw [nearestWord_eq]
    exact exec_wrCmd_busy hp (decodeCommand_nearest r g b) rfl

section
variable {s : State}

theorem execPresent_noResponse (hi : s.initFlag = true) (hp : s.presentPort = .noResponse) :
    execPresent s = .next s := by simp [execPresent, hi, hp]

theorem execSetPalette_noResponse (hf : s.paletteSource + 768 ≤ 2 ^ 64) (hp : s.palettePort = .noResponse) :
    execSetPalette s = .next s := by
  rw [execSetPalette, if_neg (Nat.not_lt.2 hf), hp]

/-- A silent region on the surface or the target, and no device or error one, keeps a response from coming. -/
theorem State.presentPort_noResponse (hds : s.ClearOf .device s.sourceSpan) (hdt : s.ClearOf .device s.targetSpan)
    (hes : s.ClearOf .error s.sourceSpan) (het : s.ClearOf .error s.targetSpan)
    (hs : s.Hits .silent s.sourceSpan ∨ s.Hits .silent s.targetSpan) : s.presentPort = .noResponse :=
  State.portResult_noResponse (by simpa using ⟨hds, hdt⟩) (by simpa using ⟨hes, het⟩) (by simpa using hs)

/-- A silent region on the palette buffer, and no device or error one, keeps a response from coming. -/
theorem State.palettePort_noResponse (hd : s.ClearOf .device s.paletteSpan) (he : s.ClearOf .error s.paletteSpan)
    (hs : s.Hits .silent s.paletteSpan) : s.palettePort = .noResponse :=
  State.portResult_noResponse (List.forall_mem_singleton.2 hd) (List.forall_mem_singleton.2 he)
    ⟨_, List.mem_singleton_self _, hs⟩

end

/-- Settles O39: both commands meet a port that never answers, and wait. -/
theorem unansweredAccessLeavesTheCommandPending : Obligations.UnansweredAccessLeavesTheCommandPending :=
  ⟨fun _ hi hds hdt hes het hs => execPresent_noResponse hi (State.presentPort_noResponse hds hdt hes het hs),
    fun _ hf hd he hs => execSetPalette_noResponse hf (State.palettePort_noResponse hd he hs)⟩

end Sys2Proof.Machine

/-! ### Progress where the memory port always answers (R82, R246, R261) -/

namespace Sys2Proof.Machine

theorem State.Answers.noDevice {s : State} (h : s.Answers) : s.NoDevice :=
  ⟨fun r hr => by simp [h.1 r hr], fun rs hrs r hr => by simp [h.2 rs hrs r hr]⟩

/-- A step takes the oldest waiting event and adds none (log entry 2). -/
theorem step_inbox {s t : State} (h : step s = .next t) : t.inbox = s.inbox.tail :=
  (runEvent_inbox_bus ((step_eq s).symm.trans h)).1

/-- The bus map after a step is as before or that of a waiting event (log entry 9). -/
theorem step_bus {s t : State} (h : step s = .next t) : t.bus = s.bus ∨ .bus t.bus ∈ s.inbox :=
  (runEvent_inbox_bus ((step_eq s).symm.trans h)).2.imp_right mem_inbox_of_nextEvent_bus

/-- A step keeps the memory port answering, now and later. -/
theorem State.Answers.step {s t : State} (h : s.Answers) (hstep : Machine.step s = .next t) : t.Answers :=
  ⟨(step_bus hstep).elim (· ▸ h.1) (h.2 _), fun rs hrs => h.2 rs (List.mem_of_mem_tail (step_inbox hstep ▸ hrs))⟩

theorem State.Answers.takeEvent {s : State} (h : s.Answers) : s.takeEvent.Answers :=
  ⟨h.1, fun rs hrs => h.2 rs (List.mem_of_mem_tail hrs)⟩

theorem State.Answers.portResult_ne {s : State} (h : s.Answers) (spans : List Span) :
    s.portResult spans ≠ .noResponse := by
  obtain hp | hp := State.portResult_answers spans h.1 <;> simp [hp]

/-- Where the memory port answers, no completion waits (R32, R246). -/
theorem State.Answers.completion_ends {s t : State} (h : s.Answers) {op : PendingOp}
    (hx : exec op.toInstr s = .next t) : t.pending = none := by
  cases op with
  | init w h' lb pb => obtain ⟨_, -, rfl⟩ | ⟨-, _, -, rfl⟩ := execInit_cases hx <;> rfl
  | shutdown => obtain rfl | ⟨-, rfl⟩ := execShutdown_cases hx <;> rfl
  | present =>
    obtain ⟨-, rfl⟩ | ⟨-, hp, -⟩ | ⟨-, -, rfl⟩ | ⟨-, -, rfl⟩ := execPresent_cases hx
    case inr.inl => exact absurd hp (h.portResult_ne _)
    all_goals rfl
  | setPalette ps =>
    obtain rfl | ⟨hp, -⟩ | ⟨-, rfl⟩ | ⟨-, rfl⟩ := execSetPalette_cases hx
    case inr.inl => exact absurd hp (h.portResult_ne _)
    all_goals rfl
  | setGamma level => obtain rfl | ⟨-, rfl⟩ := execSetGamma_cases hx <;> rfl
  | nearest r g b => cases hx; rfl

/-- Where the memory port answers, no command is pending after a step of the engine. -/
theorem State.Answers.step_engine {s : State} (h : s.Answers) (he : s.nextEvent = .engine) :
    ∃ t, Machine.step s = .next t ∧ t.pending = none := by
  obtain ⟨t, ht⟩ := h.noDevice.step_next
  refine ⟨t, ht, ?_⟩
  cases hp : s.pending with
  | none =>
    rw [step_idle he hp] at ht
    cases ht
    exact hp
  | some p =>
    rw [Machine.step_engine he hp] at ht
    exact h.takeEvent.completion_ends ht

/-- A run of one step for each waiting event takes them all; in the step after them the engine moves. -/
theorem State.Answers.run_inbox {s : State} (h : s.Answers) :
    ∃ t : State, core.run (s.inbox.length + 1) s = .next t ∧ t.inbox = [] ∧ t.pending = none := by
  induction hbox : s.inbox generalizing s with
  | nil =>
    obtain ⟨t, ht, hp⟩ := h.step_engine (nextEvent_nil hbox)
    exact ⟨t, run_succ (M := core) ht 0, by rw [step_inbox ht, hbox]; rfl, hp⟩
  | cons e es ih =>
    obtain ⟨t, ht⟩ := h.noDevice.step_next
    obtain ⟨u, hrun, hu⟩ := ih (h.step ht) (by rw [step_inbox ht, hbox]; rfl)
    exact ⟨u, (run_succ (M := core) ht _).trans hrun, hu⟩

/-- Another agent's write only notes its address against the pending command (R76, R77). -/
theorem State.agentWrites_pendingOp {s : State} {p : Pending} (hp : s.pending = some p) (a : Nat) (v : Byte) :
    ∃ q, (s.agentWrites a v).pending = some q ∧ q.op = p.op :=
  ⟨{ p with raced := a :: p.raced }, by simp [hp], rfl⟩

/-- Every event but a reset and the engine's own leaves the pending command pending (R32, R233, R261). -/
theorem runEvent_pendingOp {e : Event} {s t : State} {p : Pending} (hn : e ≠ .engine) (hr : e ≠ .reset)
    (hp : s.pending = some p) (h : runEvent e s = .next t) :
    ∃ q, t.pending = some q ∧ q.op = p.op := by
  have kept : t.pending = s.pending → ∃ q, t.pending = some q ∧ q.op = p.op := fun hk => ⟨p, hk.trans hp, rfl⟩
  cases e with
  | access a =>
    obtain ⟨w, -, hi⟩ | ⟨hk, -, -⟩ := runAccess_issue_or_keeps h
    · obtain hk | ⟨hnone, -⟩ := issue_pending hi
      · exact kept hk
      · cases hp.symm.trans hnone
    · exact kept hk
  | engine => exact absurd rfl hn
  | reset => exact absurd rfl hr
  | agentWrite a v => cases h; exact State.agentWrites_pendingOp hp _ v
  | agentRead a =>
    cases h
    refine kept ?_
    unfold State.agentReads
    split <;> rfl
  | lateWrite a =>
    cases h
    unfold State.lateWrites
    split
    · exact State.agentWrites_pendingOp hp _ (Config.freeByte s.fresh 0)
    · exact ⟨p, hp, rfl⟩
  | bus regions => cases h; exact kept rfl

/-- Where the engine moves with a command pending, it completes it. -/
theorem State.Answers.completes_now {s : State} (h : s.Answers) {p : Pending} (hp : s.pending = some p)
    (he : s.nextEvent = .engine) : s.Completing p.op ∧ ∃ v, Machine.step s = .next v ∧ v.pending = none :=
  ⟨State.completing_of_pending he hp rfl, h.step_engine he⟩

/-- With no reset to come, the pending command reaches its completion step: at the first event of the engine, or after
the last event. -/
theorem State.Answers.reaches_completion {s : State} (h : s.Answers) {p : Pending} (hp : s.pending = some p)
    (hr : .reset ∉ s.inbox) :
    ∃ (j : Nat) (u v : State), j ≤ s.inbox.length ∧ core.run j s = .next u ∧ u.Completing p.op ∧
      Machine.step u = .next v ∧ v.pending = none := by
  induction hbox : s.inbox generalizing s p with
  | nil =>
    obtain ⟨hc, v, hv, hnone⟩ := h.completes_now hp (nextEvent_nil hbox)
    exact ⟨0, s, v, le_rfl, rfl, hc, hv, hnone⟩
  | cons e es ih =>
    have he := nextEvent_cons hbox
    by_cases hn : e = .engine
    · obtain ⟨hc, v, hv, hnone⟩ := h.completes_now hp (he.trans hn)
      exact ⟨0, s, v, Nat.zero_le _, rfl, hc, hv, hnone⟩
    · rw [hbox, List.mem_cons, not_or] at hr
      obtain ⟨hre, hres⟩ := hr
      obtain ⟨t, ht⟩ := h.noDevice.step_next
      have htbox : t.inbox = es := by rw [step_inbox ht, hbox]; rfl
      obtain ⟨q, hq, hop⟩ := runEvent_pendingOp (s := s.takeEvent) hn (Ne.symm hre) hp ((step_cons hbox).symm.trans ht)
      obtain ⟨j, u, v, hj, hrun, hc, hv, hnone⟩ := ih (h.step ht) hq (htbox ▸ hres) htbox
      exact ⟨j + 1, u, v, Nat.succ_le_succ hj, (run_succ (M := core) ht j).trans hrun, hop ▸ hc, hv, hnone⟩

/-- Settles O56: both halves, by induction on the waiting events. -/
theorem everyAcceptedCommandCompletes : Obligations.EveryAcceptedCommandCompletes := fun _ h =>
  ⟨h.run_inbox, fun _ hp hr => h.reaches_completion hp hr⟩

end Sys2Proof.Machine

/-! ### What a reset aborts, and the writes that land after it (R261) -/

namespace Sys2Proof.Machine

theorem State.presentTarget_of_presenting {s : State} (h : s.presenting = true) :
    s.presentTarget = some s.targetSpan := if_pos h

/-- The target of an aborted PRESENT is among the spans late writes may still reach. -/
theorem State.targetSpan_mem_resetInput {s : State} (h : s.presenting = true) :
    s.targetSpan ∈ s.resetInput.inflight := by
  simp [State.presentTarget_of_presenting h]

/-- Every target byte of an aborted PRESENT holds a free value; the other bytes are `State.read_resetInput`. -/
theorem State.read_resetInput_target {s : State} (hm : s.mem.wf) (h : s.presenting = true) {a : Nat}
    (ha : s.targetSpan.contains a = true) (hlt : a < 2 ^ 64) :
    s.resetInput.mem.read a = Config.freeByte s.fresh (a - s.targetSpan.lo) := by
  rw [State.resetInput_mem, State.presentTarget_of_presenting h, Option.isSome_some, if_pos rfl,
    State.read_scrambled hm, if_pos ⟨ha, hlt⟩]
  rfl

/-- A late write inside a span in flight writes its byte, a free value. -/
theorem State.lateWrites_mem_of_inflight {s : State} {a : Nat} (h : ∃ r ∈ s.inflight, r.contains a = true) :
    (s.lateWrites a).mem = s.mem.write a (Config.freeByte s.fresh 0) := by
  rw [State.lateWrites, if_pos (List.any_eq_true.2 h)]
  rfl

/-- A late write outside every span in flight leaves memory as it is. -/
theorem State.lateWrites_mem_of_not_inflight {s : State} {a : Nat} (h : ∀ r ∈ s.inflight, r.contains a = false) :
    (s.lateWrites a).mem = s.mem := by
  have hany : ¬ (s.inflight.any fun r => r.contains a) = true := by simpa using h
  rw [State.lateWrites, if_neg hany]

/-- Memory after a late write: changed at most at its own byte. -/
theorem State.read_lateWrites_of_ne {s : State} (hm : s.mem.wf) {a b : Nat} (hne : b ≠ a) :
    (s.lateWrites a).mem.read b = s.mem.read b := by
  by_cases h : ∃ r ∈ s.inflight, r.contains a = true
  · rw [State.lateWrites_mem_of_inflight h, Memory.read_write hm, if_neg fun hc => hne hc.1]
  · rw [State.lateWrites_mem_of_not_inflight (by simpa using h)]

/-- The byte of a late write inside a span in flight. -/
theorem State.read_lateWrites_self {s : State} (hm : s.mem.wf) {a : Nat} (hlt : a < 2 ^ 64)
    (h : ∃ r ∈ s.inflight, r.contains a = true) :
    (s.lateWrites a).mem.read a = Config.freeByte s.fresh 0 := by
  rw [State.lateWrites_mem_of_inflight h, Memory.read_write hm, if_pos ⟨rfl, hlt⟩]

/-- Settles O8: the reset values with the target of the aborted PRESENT, and a late write by whether it falls inside a
span in flight. -/
theorem resetAbortsThePendingCommand : Obligations.ResetAbortsThePendingCommand := by
  refine ⟨fun s es p hm hbox _ => ?_, fun s es a hm hbox => ?_⟩
  · have hfree (h : s.presenting = true) (a : Nat) (ha : s.targetSpan.contains a = true) (hlt : a < 2 ^ 64) :=
      State.read_resetInput_target (s := s.takeEvent) hm h ha hlt
    exact ⟨_, step_reset (nextEvent_cons hbox), rfl, rfl, rfl, rfl, rfl,
      fun h => ⟨State.targetSpan_mem_resetInput (s := s.takeEvent) h, hfree h⟩,
      fun _ _ i => ⟨Table.get_zero i, Table.get_zero i⟩⟩
  · exact ⟨_, step_cons hbox, fun b => State.read_lateWrites_of_ne (s := s.takeEvent) hm,
      State.read_lateWrites_self (s := s.takeEvent) hm a.isLt,
      State.lateWrites_mem_of_not_inflight (s := s.takeEvent)⟩

end Sys2Proof.Machine
